-- ==== Sys2Proof/Word.lean ====
section
/-!
DEFINITION. The words of the frame codec: bytes, 16-bit fields, 32-bit page fields (spec 00_scope.md R13, R14).
-/

namespace Sys2Proof

/-- A byte (R13). -/
abbrev Byte := BitVec 8

/-- A 16-bit ADDR or LEN field of a frame (R7). -/
abbrev Half := BitVec 16

/-- A 32-bit page field: a binary32 pattern (R211) or the device id (R210). -/
abbrev Word := BitVec 32

/-- A frame is a byte sequence, element 0 first on the wire (R13, R63, R80). -/
abbrev Frame := List Byte

end Sys2Proof
end

