-- ==== Sys2Proof/Config.lean ====
section
/-!
DEFINITION. The fixed constants (spec 00_scope.md R7), the named parameters of the block (R8 to R12) with the checks a
configuration must pass (70_reset_and_hazards.md R263), and the parts of it the spec leaves open, as opaque constants.
-/

namespace Sys2Proof

/-- PAGE_SIZE (R7). -/
def pageSize : Nat := 256

/-- BAUD, informational: no rule depends on it (R7, R271). -/
def baud : Nat := 115200

/-- BUDGET, in seconds (R7). -/
def budgetSeconds : Nat := 1

/-- The greatest value of a 16-bit field; also the longest payload (R10, R114). -/
def maxField : Nat := 0xFFFF

/-- CTRL_START_CONC (R7). -/
def ctrlStartConc : Nat := 0x01

/-- CTRL_START_TH (R7). -/
def ctrlStartTh : Nat := 0x02

/-- CTRL_PERSIST (R7). -/
def ctrlPersist : Nat := 0x04

/-- The named parameters, before any check: sentinels and opcodes (R8), CHECK_LEN (R9), page offsets (R11), tick
frequency (R12). -/
structure Params where
  pStart     : Byte
  pEnd       : Byte
  pOpRead    : Byte
  pOpWrite   : Byte
  pOpAck     : Byte
  pOpNack    : Byte
  pOpReady   : Byte
  checkLen   : Nat
  offMapVer  : Nat
  offFwVer   : Nat
  offControl : Nat
  offStatus  : Nat
  offConc    : Nat
  offTemp    : Nat
  offHum     : Nat
  offId      : Nat
  /-- F_TICK: TICK events per second (R12). -/
  fTick      : Nat
deriving DecidableEq, Repr

namespace Params

/-- The seven sentinel and opcode bytes (R8). -/
def marks (p : Params) : List Byte :=
  [p.pStart, p.pEnd, p.pOpRead, p.pOpWrite, p.pOpAck, p.pOpNack, p.pOpReady]

/-- WF1: the seven values are pairwise distinct (R8). -/
def wf1 (p : Params) : Bool := decide p.marks.Nodup

/-- The byte ranges of the page, (first offset, size), the reserved byte among them (R201 c). -/
def ranges (p : Params) : List (Nat × Nat) :=
  [(p.offMapVer, 2), (p.offFwVer, 2), (p.offControl, 1), (p.offControl + 1, 1), (p.offStatus, 1),
   (p.offConc, 4), (p.offTemp, 4), (p.offHum, 4), (p.offId, 4)]

/-- Every field lies inside the page (R201 a, with R11's "below 256"). -/
def inPage (p : Params) : Bool :=
  p.offMapVer + 2 ≤ pageSize && p.offFwVer + 2 ≤ pageSize && p.offControl + 3 ≤ pageSize &&
  p.offConc + 4 ≤ pageSize && p.offTemp + 4 ≤ pageSize && p.offHum + 4 ≤ pageSize && p.offId + 4 ≤ pageSize

/-- One reserved byte between control and status (R201 b). -/
def statusPlaced (p : Params) : Bool := p.offStatus == p.offControl + 2

/-- Two ranges share no byte. -/
def apart (a b : Nat × Nat) : Bool := a.1 + a.2 ≤ b.1 || b.1 + b.2 ≤ a.1

/-- The ranges are pairwise disjoint (R201 c). -/
def disjoint (p : Params) : Bool := decide (p.ranges.Pairwise fun a b => apart a b = true)

/-- WF2 (R201). -/
def wf2 (p : Params) : Bool := p.inPage && p.statusPlaced && p.disjoint

/-- BUDGET_TICKS = 1 s × F_TICK (R12). -/
def budgetTicks (p : Params) : Nat := budgetSeconds * p.fTick

/-- The checks before the first command (R263): WF1, WF2, CHECK_LEN ∈ {0, 1}, BUDGET_TICKS ≥ 1. -/
def wellFormed (p : Params) : Bool :=
  p.wf1 && p.wf2 && decide (p.checkLen ≤ 1) && decide (1 ≤ p.budgetTicks)

end Params

/-- A configuration: parameters that pass every check of R263, with the proof. "A model instance with a configuration
that fails these checks is ill-formed and has no meaning; it is refused at construction."
The values after := only witness that some configuration passes, which an opaque constant of this type needs; no
statement rests on them, and Config.installed does not unfold to them (log entry 1). -/
structure Config extends Params where
  pStart     := 0xF0
  pEnd       := 0xF1
  pOpRead    := 0xF2
  pOpWrite   := 0xF3
  pOpAck     := 0xF4
  pOpNack    := 0xF5
  pOpReady   := 0xF6
  checkLen   := 0
  offMapVer  := 0
  offFwVer   := 2
  offControl := 4
  offStatus  := 6
  offConc    := 8
  offTemp    := 12
  offHum     := 16
  offId      := 240
  fTick      := 3
  wf         : toParams.wellFormed = true := by decide
deriving DecidableEq, Repr, Inhabited

namespace Config

/-- Construction of a configuration: refused (none) when a check of R263 fails. -/
def ofParams (p : Params) : Option Config :=
  if h : p.wellFormed = true then some { toParams := p, wf := h } else none

/-- SHORT_LEN: the length of a NACK, a READY and an ACK to a write (R10). -/
def shortLen (c : Config) : Nat := 3 + c.checkLen

/-- OVERHEAD: the length of a read-ACK with an empty payload (R10). -/
def overhead (c : Config) : Nat := 5 + c.checkLen

/-- MAX_FRAME: the longest response frame, and the capacity of BUF (R10, R34). -/
def maxFrame (c : Config) : Nat := c.overhead + maxField

/-- REQ_LEN(P): the length of a request with P payload bytes (R10). -/
def reqLen (c : Config) (payload : Nat) : Nat := 7 + payload + c.checkLen

/-- CONTROL_ADDR is fixed equal to OFF_CONTROL (R11). -/
def controlAddr (c : Config) : Nat := c.offControl

/-- The three response opcodes (R86). -/
def responseOpcodes (c : Config) : List Byte := [c.pOpAck, c.pOpNack, c.pOpReady]

/-- DESIGN CHOICE (log entry 1): the parameters of the instance that State.reset starts with. The spec gives them no value
(91_not_in_source.md N1 to N4, N21), so nothing is known of this one but that it is well-formed. -/
opaque installed : Config

/-- CHECKSUM (R9): a total function of the covered bytes with no other known property (log entry 2). It is used only
when CHECK_LEN = 1. -/
opaque checksum : List Byte → Byte

end Config

end Sys2Proof
end

