-- ==== Sys2Proof/Machine/Operands.lean ====
section
/-!
DEFINITION. Operand assembly (spec 00_scope.md R15; 30_encoding.md R92; 20_memory.md R62): little-endian reads and writes of
byte sequences, the splitting of 16- and 32-bit values, subsequences, and the masking of the control operand.
-/

namespace Sys2Proof

/-- The little-endian value of a byte sequence: the byte at index k counts 256^k times (R62). -/
def leNat : List Byte → Nat
  | [] => 0
  | b :: bs => b.toNat + 256 * leNat bs

/-- The first n bytes of a value, least significant first: byte k is v[8k+7:8k] (R15). -/
def leBytes : Nat → Nat → List Byte
  | 0, _ => []
  | n + 1, v => BitVec.ofNat 8 v :: leBytes n (v / 256)

/-- B[i..j): the elements at i through j-1 (R13). -/
def slice (B : List Byte) (i j : Nat) : List Byte := (B.drop i).take (j - i)

/-- MemRead(B, o, n); "It is defined only when o + n <= |B|" (R15), so it answers none elsewhere. -/
def memRead (B : List Byte) (o n : Nat) : Option Nat :=
  if o + n ≤ B.length then some (leNat (slice B o (o + n))) else none

/-- MemWrite(B, o, n, v) sets B[o+k] to v[8k+7:8k] for k < n (R15); none where a byte written would lie outside B. -/
def memWrite (B : List Byte) (o n v : Nat) : Option (List Byte) :=
  if o + n ≤ B.length then some (B.take o ++ leBytes n v ++ B.drop (o + n)) else none

/-- le16(v) = [v[7:0], v[15:8]] (R15, R92). -/
def le16 (v : Half) : List Byte := [v.extractLsb' 0 8, v.extractLsb' 8 8]

/-- le32(v) = [v[7:0], v[15:8], v[23:16], v[31:24]] (R15). -/
def le32 (v : Word) : List Byte :=
  [v.extractLsb' 0 8, v.extractLsb' 8 8, v.extractLsb' 16 8, v.extractLsb' 24 8]

/-- The control operand "masked to 8 bits": c mod 256 (R92, R121). -/
def controlByte (c : Nat) : Byte := BitVec.ofNat 8 (c % 256)

end Sys2Proof
end

