-- ==== Sys2Proof/Syntax.lean ====
section
/-!
DEFINITION. What the block is given: the small enumerations of its operands and registers, the values of its input ports
(spec 30_encoding.md R90, R91, R94), and Instr, one constructor per row of spec/opcode_table.json.
-/

namespace Sys2Proof

/-- The operation of a request (R32, R91). -/
inductive Op
  | read
  | write
deriving DecidableEq, Repr

/-- The variant of the state machine, chosen per exchange (R19, R35). -/
inductive Mode
  | normal
  | ping
deriving DecidableEq, Repr

/-- PHASE (R31). -/
inductive Phase
  | off
  | seeking
  | haveOpcode
  | sizing
  | collecting
  | done
deriving DecidableEq, Repr

/-- The classified opcode of a response (R33). -/
inductive RxKind
  | ack
  | nack
  | ready
deriving DecidableEq, Repr

/-- Events on the ports RX, XERR and TICK (R90, R91). -/
inductive Event
  | rx (b : Byte)
  | rxNone
  | tick
  | xportErr
deriving DecidableEq, Repr

/-- The commands of the command port (R91): one closed type, no bit encoding. addr and length are natural numbers, so
that the refusal of a value above 0xFFFF (R114) is a case of the model (log entry 7). -/
inductive Command
  | build (op : Op) (addr : Nat) (payload : List Byte) (length : Nat)
  | encodeControl (c : Nat)
  | beginExchange (op : Op) (addr : Nat) (payload : List Byte) (length : Nat) (mode : Mode)
  | listen (op : Op) (mode : Mode)
  | decodePage (buffer : List Byte)
  | reset
deriving DecidableEq, Repr

/-- The pseudo-commands (R94). -/
inductive Pseudo
  | readPage
  | writeBytes (addr : Nat) (payload : List Byte)
  | writeControl (c : Nat)
  | probe (mode : Mode)
deriving DecidableEq, Repr

/-- One value waiting at an input port: a command, an event, a pseudo-command (log entry 13), the bytes of a request frame
for the encoder, or bytes that the transport delivers one after the other with no other event between them (log entry 8).
A delivery has at least one byte: its first, and the rest. -/
inductive Input
  | cmd (c : Command)
  | event (e : Event)
  | pseudo (p : Pseudo)
  | request (frame : Frame)
  | rxFrame (first : Byte) (rest : List Byte)
deriving DecidableEq, Repr

/-- The opcode table, one constructor per row. A CHECK field is no operand: the table gives it the value CHECKSUM(...).
-/
inductive Instr
  /-- REQ_READ (R81, R111). -/
  | reqRead (addr len : Half)
  /-- REQ_WRITE (R82, R112). -/
  | reqWrite (addr len : Half) (payload : List Byte)
  /-- RSP_ACK_READ (R84, R163). -/
  | rspAckRead (len : Half) (payload : List Byte)
  /-- RSP_ACK_WRITE (R83, R164). -/
  | rspAckWrite
  /-- RSP_NACK (R83, R166). -/
  | rspNack
  /-- RSP_READY (R83, R165). -/
  | rspReady
  /-- RSP_BAD_OPCODE (R89, R151). -/
  | rspBadOpcode (x : Byte)
  /-- BUILD (R110). -/
  | build (op : Op) (addr : Nat) (payload : List Byte) (length : Nat)
  /-- ENCODE_CONTROL (R121). -/
  | encodeControl (c : Nat)
  /-- BEGIN (R140). -/
  | beginExchange (op : Op) (addr : Nat) (payload : List Byte) (length : Nat) (mode : Mode)
  /-- LISTEN (R141). -/
  | listen (op : Op) (mode : Mode)
  /-- DECODE_PAGE (R200). -/
  | decodePage (buffer : List Byte)
  /-- RESET (R260). -/
  | reset
  /-- RX_SEEKING (R145, R146). -/
  | rxSeeking (b : Byte)
  /-- RX_HAVE_OPCODE (R150 to R155). -/
  | rxHaveOpcode (b : Byte)
  /-- RX_SIZING_LO (R156). -/
  | rxSizingLo (b : Byte)
  /-- RX_SIZING_HI (R157). -/
  | rxSizingHi (b : Byte)
  /-- RX_COLLECTING (R158). -/
  | rxCollecting (b : Byte)
  /-- RX_COMPLETE (R160). -/
  | rxComplete (b : Byte)
  /-- RX_NONE (R170). -/
  | rxNone
  /-- RX_NONE_PING (R171). -/
  | rxNonePing
  /-- TICK (R172). -/
  | tick
  /-- XPORT_ERR (R173). -/
  | xportErr
  /-- EVENT_IDLE (R144). -/
  | eventIdle (e : Event)
  /-- READ_PAGE (R120). -/
  | readPage
  /-- WRITE_BYTES (R122). -/
  | writeBytes (addr : Nat) (payload : List Byte)
  /-- WRITE_CONTROL (R123). -/
  | writeControl (c : Nat)
  /-- PROBE (R124). -/
  | probe (mode : Mode)
deriving DecidableEq, Repr

end Sys2Proof
end

