-- ==== Sys2Proof/Machine/Frames.lean ====
section
/-!
DEFINITION. The byte layout of every frame (spec 30_encoding.md R80 to R86) and the check field (R85; 40_frame_encoder.md
R113). BUILD (R111, R112) and the encoder of Decode.lean both lay frames out with these.
-/

namespace Sys2Proof

/-- CHECK_FIELD(body) (R113): the checksum of the frame from OPCODE through the last payload byte, if CHECK_LEN = 1. -/
def checkField (c : Config) (body : List Byte) : List Byte :=
  if c.checkLen = 1 then [Config.checksum body] else []

/-- Every frame opens with START and closes with END, CHECK immediately before END (R80, R85). -/
def envelope (c : Config) (body : List Byte) : Frame :=
  [c.pStart] ++ body ++ checkField c body ++ [c.pEnd]

/-- The OPCODE byte of a request (R86). -/
def requestOpcode (c : Config) : Op → Byte
  | .read => c.pOpRead
  | .write => c.pOpWrite

/-- A request frame: OPCODE, le16(A), le16(L), payload in the envelope (R81, R82). -/
def requestFrame (c : Config) (op : Op) (addr len : Half) (payload : List Byte) : Frame :=
  envelope c ([requestOpcode c op] ++ le16 addr ++ le16 len ++ payload)

/-- A short response: OPCODE alone in the envelope (R83). -/
def shortFrame (c : Config) (opcode : Byte) : Frame := envelope c [opcode]

/-- A read-ACK: ACK, le16(L), payload in the envelope (R84). -/
def readAckFrame (c : Config) (len : Half) (payload : List Byte) : Frame :=
  envelope c ([c.pOpAck] ++ le16 len ++ payload)

/-- The refusals of BUILD (R114): a READ with a payload, a payload above 0xFFFF bytes, an addr or length above 0xFFFF. -/
def buildRefused (op : Op) (addr : Nat) (payload : List Byte) (length : Nat) : Bool :=
  (op == .read && payload != []) || decide (maxField < payload.length) ||
  decide (maxField < addr) || decide (maxField < length)

/-- BUILD(op, A, D, L) (R110 to R112): the frame, or none where BUILD is refused (R114). LEN is the caller's length, even
where it is not the payload's (R115). -/
def buildFrame (c : Config) (op : Op) (addr : Nat) (payload : List Byte) (length : Nat) : Option Frame :=
  if buildRefused op addr payload length then none
  else some (requestFrame c op (BitVec.ofNat 16 addr) (BitVec.ofNat 16 length) payload)

/-- ENCODE_CONTROL(c) = (CONTROL_ADDR, [c mod 256]) (R121). -/
def encodeControl (c : Config) (value : Nat) : Nat × List Byte := (c.controlAddr, [controlByte value])

end Sys2Proof
end

