-- ==== Sys2Proof/WellFormed.lean ====
section
/-!
DEFINITION. Which instructions are well-formed under a configuration: the fields a frame of the opcode table can carry
(spec 30_encoding.md R81 to R89). The preconditions of R114 on commands are no check here: a command that breaks one is
an instruction the block takes, with the effect of a refused command. The checks on the configuration itself are
Params.wellFormed (Config.lean).
-/

namespace Sys2Proof

/-- A payload fits the 16-bit length range (R82, R84, R114). -/
def payloadFits (d : List Byte) : Bool := decide (d.length ≤ maxField)

/-- A read-ACK carries as many payload bytes as its embedded length says (R84). -/
def lengthAgrees (len : Half) (d : List Byte) : Bool := d.length == len.toNat

/-- The opcode byte of an illegal response (R89). -/
def isBadOpcode (c : Config) (x : Byte) : Bool := !c.responseOpcodes.contains x

/-- The checks on an instruction; commands and events have none. -/
def Instr.wellFormed (c : Config) : Instr → Bool
  | .reqRead _ _ => true
  | .reqWrite _ _ d => payloadFits d
  | .rspAckRead len d => lengthAgrees len d
  | .rspAckWrite => true
  | .rspNack => true
  | .rspReady => true
  | .rspBadOpcode x => isBadOpcode c x
  | .build _ _ _ _ => true
  | .encodeControl _ => true
  | .beginExchange _ _ _ _ _ => true
  | .listen _ _ => true
  | .decodePage _ => true
  | .reset => true
  | .rxSeeking _ => true
  | .rxHaveOpcode _ => true
  | .rxSizingLo _ => true
  | .rxSizingHi _ => true
  | .rxCollecting _ => true
  | .rxComplete _ => true
  | .rxNone => true
  | .rxNonePing => true
  | .tick => true
  | .xportErr => true
  | .eventIdle _ => true
  | .readPage => true
  | .writeBytes _ _ => true
  | .writeControl _ => true
  | .probe _ => true

end Sys2Proof
end

