-- ==== Sys2Proof/Decode.lean ====
section
/-!
DEFINITION. Which row of the opcode table an input is. Frames are read from their bytes (spec 30_encoding.md R81 to R89);
a command is its tag (R91), a pseudo-command its own tag (R94); an event is the row that the dispatch of
41_response_classifier.md R174 selects by PHASE, COUNT, EXPECTED, MODE and RX_SEEN. After the decoder stands the encoder.
-/

namespace Sys2Proof

/-- Why bytes are no frame of the opcode table. -/
inductive Reject
  /-- Fewer bytes than the shortest frame of the kind (R81, R83, R84). -/
  | tooShort
  /-- Byte 0 is not P_START (R80). -/
  | badStart
  /-- Byte 1 is no opcode of the direction (R86, R89). -/
  | badOpcode
  /-- The length is not the one that the kind and its LEN field give (R88). -/
  | badLength
  /-- The last byte is not P_END (R80, R89). -/
  | badEnd
  /-- CHECK_LEN = 1 and the byte before END is not the checksum (R85, R89). -/
  | badCheck
  /-- A write payload above 0xFFFF bytes (R112, R114). -/
  | payloadTooLong
  /-- An ACK where no request operation is held: its format is unknown (R86). -/
  | noRequestOp
  /-- Bytes delivered in a phase other than SEEKING are no whole frame (log entry 8). -/
  | notSeeking
deriving DecidableEq, Repr

/-- The registers that select a row (the "match" column of the opcode table). -/
structure Context where
  phase    : Phase
  reqOp    : Option Op
  mode     : Option Mode
  count    : Nat
  expected : Nat
  rxSeen   : Bool
deriving DecidableEq, Repr

/-- PHASE is OFF or DONE (R144). -/
def Phase.idle : Phase → Bool
  | .off => true
  | .seeking => false
  | .haveOpcode => false
  | .sizing => false
  | .collecting => false
  | .done => true

/-! ### Frames -/

/-- The last byte is P_END (R80). -/
def endOk (c : Config) (F : Frame) : Bool := F[F.length - 1]? == some c.pEnd

/-- CHECK, where there is one, is the checksum of OPCODE through the last byte before it (R85). -/
def checkOk (c : Config) (F : Frame) : Bool :=
  c.checkLen != 1 || F[F.length - 2]? == some (Config.checksum (slice F 1 (F.length - 2)))

/-- The request that bytes encode (R81, R82): ADDR in bytes 2 and 3, LEN in bytes 4 and 5, the payload from byte 6 to the
CHECK/END region. -/
def decodeRequest (c : Config) (F : Frame) : Except Reject Instr :=
  if F.length < c.reqLen 0 then .error .tooShort
  else if F[0]? != some c.pStart then .error .badStart
  else if !endOk c F then .error .badEnd
  else if !checkOk c F then .error .badCheck
  else
    match F[1]?, memRead F 2 2, memRead F 4 2 with
    | some op, some a, some l =>
      let d := slice F 6 (F.length - 1 - c.checkLen)
      if op = c.pOpRead then
        if d = [] then .ok (.reqRead (BitVec.ofNat 16 a) (BitVec.ofNat 16 l)) else .error .badLength
      else if op = c.pOpWrite then
        if payloadFits d then .ok (.reqWrite (BitVec.ofNat 16 a) (BitVec.ofNat 16 l) d) else .error .payloadTooLong
      else .error .badOpcode
    | _, _, _ => .error .tooShort

/-- A whole response of the given length that ends well is the row i (R83, R84, R88, R89). -/
def closedBy (c : Config) (F : Frame) (len : Nat) (i : Instr) : Except Reject Instr :=
  if F.length ≠ len then .error .badLength
  else if !endOk c F then .error .badEnd
  else if !checkOk c F then .error .badCheck
  else .ok i

/-- The response that bytes encode, in an exchange whose request operation is reqOp (R83, R84, R86, R89). -/
def decodeResponse (c : Config) (reqOp : Option Op) (F : Frame) : Except Reject Instr :=
  if F[0]? != some c.pStart then .error .badStart
  else
    match F[1]? with
    | none => .error .tooShort
    | some x =>
      if x = c.pOpAck then
        match reqOp with
        | some .read =>
          match memRead F 2 2 with
          | some l =>
            closedBy c F (c.overhead + l) (.rspAckRead (BitVec.ofNat 16 l) (slice F 4 (4 + l)))
          | none => .error .tooShort
        | some .write => closedBy c F c.shortLen .rspAckWrite
        | none => .error .noRequestOp
      else if x = c.pOpNack then closedBy c F c.shortLen .rspNack
      else if x = c.pOpReady then closedBy c F c.shortLen .rspReady
      else if F.length = 2 then .ok (.rspBadOpcode x)
      else .error .badOpcode

/-! ### Commands and events -/

/-- The row of a command (R91). -/
def commandRow : Command → Instr
  | .build op a d l => .build op a d l
  | .encodeControl v => .encodeControl v
  | .beginExchange op a d l m => .beginExchange op a d l m
  | .listen op m => .listen op m
  | .decodePage b => .decodePage b
  | .reset => .reset

/-- The row of a pseudo-command (R94). -/
def pseudoRow : Pseudo → Instr
  | .readPage => .readPage
  | .writeBytes a d => .writeBytes a d
  | .writeControl v => .writeControl v
  | .probe m => .probe m

/-- The row of RX(b) in an active phase (R145 to R160; R174). -/
def rxRow (x : Context) (b : Byte) : Instr :=
  match x.phase with
  | .off => .eventIdle (.rx b)
  | .seeking => .rxSeeking b
  | .haveOpcode => .rxHaveOpcode b
  | .sizing => if x.count + 1 = 4 then .rxSizingHi b else .rxSizingLo b
  | .collecting => if x.count + 1 = x.expected then .rxComplete b else .rxCollecting b
  | .done => .eventIdle (.rx b)

/-- RX_NONE fails fast: MODE = PING and no byte has arrived (R171). -/
def Context.failsFast (x : Context) : Bool := x.mode == some .ping && !x.rxSeen

/-- The row of an event (R144, R174). -/
def eventRow (x : Context) (e : Event) : Instr :=
  if x.phase.idle then .eventIdle e
  else
    match e with
    | .rx b => rxRow x b
    | .rxNone => if x.failsFast then .rxNonePing else .rxNone
    | .tick => .tick
    | .xportErr => .xportErr

/-- What is left of a delivery after its first byte has been taken. -/
def leftover : List Byte → List Input
  | [] => []
  | b :: bs => [.rxFrame b bs]

/-- The row of an input, and what of the input stays pending. Bytes delivered while the block seeks a START, and that are
a whole response frame, are that frame's row; other bytes are taken one RX event at a time. -/
def decode (c : Config) (x : Context) : Input → Except Reject (Instr × List Input)
  | .cmd k => .ok (commandRow k, [])
  | .event e => .ok (eventRow x e, [])
  | .pseudo p => .ok (pseudoRow p, [])
  | .request F =>
    match decodeRequest c F with
    | .ok i => .ok (i, [])
    | .error r => .error r
  | .rxFrame b bs =>
    match (if x.phase = .seeking then decodeResponse c x.reqOp (b :: bs) else .error .notSeeking) with
    | .ok i => .ok (i, [])
    | .error _ => .ok (eventRow x (.rx b), leftover bs)

/-! ### The encoder -/

/-- A delivery of the bytes of a frame. -/
def delivery : Frame → Input
  | [] => .request []
  | b :: bs => .rxFrame b bs

/-- The input that presents an instruction: the frame's bytes (R81 to R89), the command's tag (R91), the event (R90). -/
def encode (c : Config) : Instr → Input
  | .reqRead a l => .request (requestFrame c .read a l [])
  | .reqWrite a l d => .request (requestFrame c .write a l d)
  | .rspAckRead l d => delivery (readAckFrame c l d)
  | .rspAckWrite => delivery (shortFrame c c.pOpAck)
  | .rspNack => delivery (shortFrame c c.pOpNack)
  | .rspReady => delivery (shortFrame c c.pOpReady)
  | .rspBadOpcode x => delivery [c.pStart, x]
  | .build op a d l => .cmd (.build op a d l)
  | .encodeControl v => .cmd (.encodeControl v)
  | .beginExchange op a d l m => .cmd (.beginExchange op a d l m)
  | .listen op m => .cmd (.listen op m)
  | .decodePage b => .cmd (.decodePage b)
  | .reset => .cmd .reset
  | .rxSeeking b => .event (.rx b)
  | .rxHaveOpcode b => .event (.rx b)
  | .rxSizingLo b => .event (.rx b)
  | .rxSizingHi b => .event (.rx b)
  | .rxCollecting b => .event (.rx b)
  | .rxComplete b => .event (.rx b)
  | .rxNone => .event .rxNone
  | .rxNonePing => .event .rxNone
  | .tick => .event .tick
  | .xportErr => .event .xportErr
  | .eventIdle e => .event e
  | .readPage => .pseudo .readPage
  | .writeBytes a d => .pseudo (.writeBytes a d)
  | .writeControl v => .pseudo (.writeControl v)
  | .probe m => .pseudo (.probe m)

/-- The "match" column of the opcode table: when the registers select the row. Commands, pseudo-commands and request frames
are selected in every state. -/
def Context.selects (x : Context) : Instr → Bool
  | .reqRead _ _ => true
  | .reqWrite _ _ _ => true
  | .rspAckRead _ _ => x.phase == .seeking && x.reqOp == some .read
  | .rspAckWrite => x.phase == .seeking && x.reqOp == some .write
  | .rspNack => x.phase == .seeking
  | .rspReady => x.phase == .seeking
  | .rspBadOpcode _ => x.phase == .seeking
  | .build _ _ _ _ => true
  | .encodeControl _ => true
  | .beginExchange _ _ _ _ _ => true
  | .listen _ _ => true
  | .decodePage _ => true
  | .reset => true
  | .rxSeeking _ => x.phase == .seeking
  | .rxHaveOpcode _ => x.phase == .haveOpcode
  | .rxSizingLo _ => x.phase == .sizing && x.count == 2
  | .rxSizingHi _ => x.phase == .sizing && x.count == 3
  | .rxCollecting _ => x.phase == .collecting && decide (x.count + 1 < x.expected)
  | .rxComplete _ => x.phase == .collecting && x.count + 1 == x.expected
  | .rxNone => !x.phase.idle && !x.failsFast
  | .rxNonePing => !x.phase.idle && x.failsFast
  | .tick => !x.phase.idle
  | .xportErr => !x.phase.idle
  | .eventIdle _ => x.phase.idle
  | .readPage => true
  | .writeBytes _ _ => true
  | .writeControl _ => true
  | .probe _ => true

/-! ### The host's word interface -/

/-- The bytes of a word numbered as the host numbers one: bit 0 is the least significant bit of the first byte. -/
def wordBytes (nbits w : Nat) : List Byte := leBytes ((nbits + 7) / 8) w

/-- The frame that bytes are, tried as a request, then as a response to a Read, then as a response to a Write. -/
def decodeFrame (c : Config) (F : Frame) : Except Reject Instr :=
  match decodeRequest c F with
  | .ok i => .ok i
  | .error _ =>
    match decodeResponse c (some .read) F with
    | .ok i => .ok i
    | .error _ => decodeResponse c (some .write) F

/-- The instruction read from a word of the opcode table. The table gives bytes to frames only, and to those in terms of
parameters without values, so the configuration is the one State.reset starts with (log entry 14). -/
def decodeTableWord (nbits w : Nat) : Option Instr :=
  match decodeFrame Config.installed (wordBytes nbits w) with
  | .ok i => some i
  | .error _ => none

end Sys2Proof
end

