-- ==== Sys2Proof/Machine/State.lean ====
section
/-!
DEFINITION. The state of the block: every register of spec 10_state.md, its configuration (R44), the pending inputs and the
outputs of its ports (30_encoding.md R90), with the reasons a step can stop.
-/

namespace Sys2Proof.Machine

/-- The reason of a MALFORMED outcome (60_exceptions.md R231). -/
inductive MalformedReason
  | badOpcode
  | badEnd
  | overLength
  | badCheck
deriving DecidableEq, Repr

/-- The single terminal result of an exchange (60_exceptions.md R230); "no outcome yet" is none of Option. -/
inductive ExchangeOutcome
  | ack (payload : List Byte)
  | ready
  | rejected
  | malformed (reason : MalformedReason)
  | timeout
  | transportError
deriving DecidableEq, Repr

/-- A decoded register page (42_register_page.md R200): a float field is its 32-bit pattern (R211). -/
structure RegisterPage where
  mapVerMinor   : Byte
  mapVerMajor   : Byte
  fwVerMinor    : Byte
  fwVerMajor    : Byte
  control       : Byte
  status        : Byte
  concentration : Word
  temperature   : Word
  humidity      : Word
  deviceId      : Word
deriving DecidableEq, Repr

/-- The result of DECODE_PAGE (R200, R202; 60_exceptions.md R234). -/
inductive PageResult
  | tooShort
  | page (p : RegisterPage)
deriving DecidableEq, Repr

/-- What the block puts on an output port (30_encoding.md R90): a frame on TX, the release of the port on CLOSE, a built
frame or an encoded control write on ENC, a decoded page on PAGE. -/
inductive Emit
  | tx (frame : Frame)
  | close
  | encFrame (frame : Frame)
  | encControl (addr : Nat) (payload : List Byte)
  | page (r : PageResult)
deriving DecidableEq, Repr

/-- The state. COUNT, EXPECTED and ELAPSED are natural numbers: "no wrap-around", and their widths "are chosen so that no
rule overflows" (00_scope.md R14; log entry 18). -/
structure State where
  /-- The named parameters, fixed per instance (R44, R263). -/
  cfg      : Config
  /-- PHASE (R31). -/
  phase    : Phase
  /-- REQ_OP (R32). -/
  reqOp    : Option Op
  /-- RX_KIND (R33). -/
  rxKind   : Option RxKind
  /-- MODE (R35). -/
  mode     : Option Mode
  /-- BUF (R34). -/
  buf      : List Byte
  /-- COUNT (R34). -/
  count    : Nat
  /-- EXPECTED (R36). -/
  expected : Nat
  /-- RX_SEEN (R37). -/
  rxSeen   : Bool
  /-- ELAPSED (R38). -/
  elapsed  : Nat
  /-- OUTCOME (R39). -/
  outcome  : Option ExchangeOutcome
  /-- REFUSED, sticky (R41). -/
  refused  : Bool
  /-- MODEL (log entry 3): what waits at the input ports, oldest first. -/
  inputs   : List Input
  /-- MODEL (log entry 4): what the output ports have carried, oldest first. -/
  emitted  : List Emit
deriving DecidableEq, Repr

/-- Why a step stops with a fault. Each is raised only in states that break the invariant of Safety.lean, where the spec
gives no rule; no run from reset reaches one. All are safe: the model stops where the spec says nothing (log entry 11). -/
inductive Fault
  /-- Raised by RX at the opcode (R152, R153) and at completion (R160) when REQ_OP holds no value and is needed. Safe. -/
  | noRequestOperation
  /-- Raised by RX at completion (R160) when RX_KIND holds no value. Safe. -/
  | noResponseKind
  /-- Raised by a MemRead outside its byte sequence, where R15 leaves it undefined (R157, R163, R200). Safe. -/
  | readOutOfRange
deriving DecidableEq, Repr

/-- Why a step is refused. -/
inductive Refusal
  /-- An instruction without a meaning in exec. Safe. -/
  | notModelled (mnemonic : String)
  /-- Raised by step for bytes presented as a request frame that are no frame of the opcode table. Safe (log entry 12). -/
  | undecodable (reason : Reject)
deriving DecidableEq, Repr

/-- The block right after power-on (R45, R262): the reset values of R45, REFUSED 0, nothing pending and nothing emitted,
with the installed configuration (log entry 1). -/
def State.reset : State where
  cfg      := Config.installed
  phase    := .off
  reqOp    := none
  rxKind   := none
  mode     := none
  buf      := []
  count    := 0
  expected := 0
  rxSeen   := false
  elapsed  := 0
  outcome  := none
  refused  := false
  inputs   := []
  emitted  := []

/-- What a meaning answers. -/
abbrev Answer := Host.Outcome State Fault Refusal

end Sys2Proof.Machine
end

