-- ==== Sys2Proof/Machine/Flags.lean ====
section
/-!
DEFINITION. The status flags and the STATUS port (spec 10_state.md R40, R43; 60_exceptions.md R230, R231, R234): views of
PHASE and OUTCOME, with the numeric codes the spec assigns.
-/

namespace Sys2Proof.Machine

/-- BUSY: PHASE is SEEKING, HAVE_OPCODE, SIZING or COLLECTING (R40). -/
def State.busy (s : State) : Bool := !s.phase.idle

/-- DONE: PHASE is DONE (R40). -/
def State.done (s : State) : Bool := s.phase == .done

/-- The code of OUTCOME on the STATUS port, 0 for none (R230). -/
def outcomeCode : Option ExchangeOutcome → Nat
  | none => 0
  | some (.ack _) => 1
  | some .ready => 2
  | some .rejected => 3
  | some (.malformed _) => 4
  | some .timeout => 5
  | some .transportError => 6

/-- The code of a MALFORMED reason (R231). -/
def reasonCode : MalformedReason → Nat
  | .badOpcode => 1
  | .badEnd => 2
  | .overLength => 3
  | .badCheck => 4

/-- The class of an outcome: success for ACK and READY (R230). -/
def ExchangeOutcome.isSuccess : ExchangeOutcome → Bool
  | .ack _ => true
  | .ready => true
  | .rejected => false
  | .malformed _ => false
  | .timeout => false
  | .transportError => false

/-- The code of TOO_SHORT in the spec's numbering; a decoded page has none (R234). -/
def pageCode : PageResult → Option Nat
  | .tooShort => some 7
  | .page _ => none

/-- The STATUS port: DONE, BUSY, OUTCOME (R90) with its code (R230). -/
structure StatusPort where
  done    : Bool
  busy    : Bool
  outcome : Option ExchangeOutcome
  code    : Nat
deriving DecidableEq, Repr

/-- What the STATUS port shows, at any time (R40). -/
def State.status (s : State) : StatusPort where
  done    := s.done
  busy    := s.busy
  outcome := s.outcome
  code    := outcomeCode s.outcome

/-- The registers that select a row of the opcode table. -/
def State.context (s : State) : Context where
  phase    := s.phase
  reqOp    := s.reqOp
  mode     := s.mode
  count    := s.count
  expected := s.expected
  rxSeen   := s.rxSeen

end Sys2Proof.Machine
end

