-- ==== Sys2Proof/Machine/Ops.lean ====
section
/-!
DEFINITION. The operations the meanings share: output, refusal of a command, entry into DONE (raise) and the ways out of it,
the opening of an exchange, the rules of the classifier one by one (spec 41_response_classifier.md), and its dispatch (R174).
-/

namespace Sys2Proof.Machine

/-! ### Outputs, refusal, outcomes -/

/-- `emit`: one value on an output port (R15, R90). -/
def State.emit (s : State) (e : Emit) : State := { s with emitted := s.emitted ++ [e] }

/-- A refused command: no register changes but REFUSED, nothing is emitted (R16, R114, R142). -/
def State.refuse (s : State) : State := { s with refused := true }

/-- `raise X(info)`: PHASE becomes DONE, OUTCOME X, CLOSE is emitted; no other register changes (R15, R232). `finish(X)` is
the same action. This is the block's one way of taking an exception. -/
def State.raise (s : State) (x : ExchangeOutcome) : State :=
  { s with phase := .done, outcome := some x, emitted := s.emitted ++ [.close] }

/-- Every exchange register is written anew, and PHASE becomes SEEKING (R140, R141, R176). BEGIN and LISTEN are the return
from an outcome (R238). -/
def State.openExchange (s : State) (op : Op) (m : Mode) : State :=
  { s with
    phase := .seeking, reqOp := some op, rxKind := none, mode := some m, buf := [], count := 0, expected := 0,
    rxSeen := false, elapsed := 0, outcome := none }

/-- Every register at its reset value, REFUSED unchanged, nothing emitted (R260); the other way out of DONE (R238). -/
def State.resetRegisters (s : State) : State :=
  { s with
    phase := .off, reqOp := none, rxKind := none, mode := none, buf := [], count := 0, expected := 0,
    rxSeen := false, elapsed := 0, outcome := none }

/-- BUILD as a command: its frame on the ENC port, or a refusal (R110, R114). -/
def State.buildOnEnc (s : State) (op : Op) (addr : Nat) (payload : List Byte) (length : Nat) : State :=
  match buildFrame s.cfg op addr payload length with
  | some F => s.emit (.encFrame F)
  | none => s.refuse

/-- BEGIN (R140): refused while BUSY (R142) and where BUILD is refused (R114); else the exchange opens and the frame is
handed to TX. -/
def State.beginWith (s : State) (op : Op) (addr : Nat) (payload : List Byte) (length : Nat) (m : Mode) : State :=
  if s.busy then s.refuse
  else
    match buildFrame s.cfg op addr payload length with
    | some F => (s.openExchange op m).emit (.tx F)
    | none => s.refuse

/-- LISTEN (R141): as BEGIN, with no BUILD and no TX. -/
def State.listenWith (s : State) (op : Op) (m : Mode) : State :=
  if s.busy then s.refuse else s.openExchange op m

/-! ### The rules of RX -/

/-- `append(b)` (the head of 41_response_classifier.md). -/
def State.append (s : State) (b : Byte) : State := { s with buf := s.buf ++ [b], count := s.count + 1 }

/-- RX_SEEN <- 1; append(b): how every RX after START begins (R150, R156 to R158). -/
def State.take (s : State) (b : Byte) : State := { s with rxSeen := true }.append b

/-- RX in SEEKING: START is buffered (R145), any other byte dropped (R146). -/
def State.rxInSeeking (s : State) (b : Byte) : State :=
  if b = s.cfg.pStart then { s with rxSeen := true, buf := [b], count := 1, phase := .haveOpcode }
  else { s with rxSeen := true }

/-- The opcode is accepted: RX_KIND, EXPECTED and PHASE are written (R152 to R155). -/
def State.accept (s : State) (k : RxKind) (len : Nat) (p : Phase) : State :=
  { s with rxKind := some k, expected := len, phase := p }

/-- The opcode b, already appended, is classified (R151 to R155). -/
def State.classify (s : State) (b : Byte) : Answer :=
  if b = s.cfg.pOpAck then
    match s.reqOp with
    | some .read => .next (s.accept .ack s.cfg.overhead .sizing)
    | some .write => .next (s.accept .ack s.cfg.shortLen .collecting)
    | none => .fault .noRequestOperation
  else if b = s.cfg.pOpNack then .next (s.accept .nack s.cfg.shortLen .collecting)
  else if b = s.cfg.pOpReady then .next (s.accept .ready s.cfg.shortLen .collecting)
  else .next (s.raise (.malformed .badOpcode))

/-- RX in HAVE_OPCODE (R150). -/
def State.rxInHaveOpcode (s : State) (b : Byte) : Answer := (s.take b).classify b

/-- EXPECTED after the length field: OVERHEAD + L if L > 0, else OVERHEAD (R157). -/
def revisedLength (c : Config) (L : Nat) : Nat := if 0 < L then c.overhead + L else c.overhead

/-- The one-time revision of EXPECTED, with both length bytes in BUF (R157). -/
def State.revise (s : State) : Answer :=
  match memRead s.buf 2 2 with
  | some L => .next { s with expected := revisedLength s.cfg L, phase := .collecting }
  | none => .fault .readOutOfRange

/-- RX in SIZING, low length byte (R156). -/
def State.rxLengthLow (s : State) (b : Byte) : State := s.take b

/-- RX in SIZING, high length byte (R157). -/
def State.rxLengthHigh (s : State) (b : Byte) : Answer := (s.take b).revise

/-- RX in SIZING: the length is revised when COUNT becomes 4 (R174). -/
def State.rxInSizing (s : State) (b : Byte) : Answer :=
  if (s.take b).count = 4 then s.rxLengthHigh b else .next (s.rxLengthLow b)

/-- CHECK_LEN = 1 and the check byte is wrong (R162). -/
def State.checkFails (s : State) : Bool :=
  s.cfg.checkLen == 1 &&
  s.buf[s.expected - 2]? != some (Config.checksum (slice s.buf 1 (s.expected - 2)))

/-- The kind-specific result of a complete frame (R163 to R166). -/
def State.conclude (s : State) : Answer :=
  match s.rxKind, s.reqOp with
  | some .ack, some .read =>
    match memRead s.buf 2 2 with
    | some L => .next (s.raise (.ack (slice s.buf 4 (4 + L))))
    | none => .fault .readOutOfRange
  | some .ack, some .write => .next (s.raise (.ack []))
  | some .ack, none => .fault .noRequestOperation
  | some .ready, _ => .next (s.raise .ready)
  | some .nack, _ => .next (s.raise .rejected)
  | none, _ => .fault .noResponseKind

/-- `complete()` (R160): the END test (R161), then the check test (R162), then the result. -/
def State.complete (s : State) : Answer :=
  if s.buf[s.expected - 1]? ≠ some s.cfg.pEnd then .next (s.raise (.malformed .badEnd))
  else if s.checkFails then .next (s.raise (.malformed .badCheck))
  else s.conclude

/-- RX in COLLECTING, after append(b): over-length guard (R159), completion (R160), or nothing more (R158). -/
def State.settle (s : State) : Answer :=
  if s.expected < s.count then .next (s.raise (.malformed .overLength))
  else if s.count = s.expected then s.complete
  else .next s

/-- RX in COLLECTING (R158 to R160). -/
def State.rxInCollecting (s : State) (b : Byte) : Answer := (s.take b).settle

/-! ### The other events -/

/-- RX_NONE in an active phase (R170, R171). -/
def State.emptyPoll (s : State) : State := if s.context.failsFast then s.raise .timeout else s

/-- ELAPSED <- ELAPSED + 1. -/
def State.countTick (s : State) : State := { s with elapsed := s.elapsed + 1 }

/-- TICK in an active phase (R172). -/
def State.tickOnce (s : State) : State :=
  if s.elapsed + 1 = s.cfg.budgetTicks then s.countTick.raise .timeout else s.countTick

/-! ### The dispatch of R174 -/

/-- RX(b) by PHASE (R174; ignored in OFF and DONE, R144). -/
def State.receive (s : State) (b : Byte) : Answer :=
  match s.phase with
  | .off => .next s
  | .seeking => .next (s.rxInSeeking b)
  | .haveOpcode => s.rxInHaveOpcode b
  | .sizing => s.rxInSizing b
  | .collecting => s.rxInCollecting b
  | .done => .next s

/-- An event arrives (R174). -/
def State.takeEvent (s : State) (e : Event) : Answer :=
  if s.busy then
    match e with
    | .rx b => s.receive b
    | .rxNone => .next s.emptyPoll
    | .tick => .next s.tickOnce
    | .xportErr => .next (s.raise .transportError)
  else .next s

/-- The transport delivers bytes one after the other, one RX event each, with no other event between them (R63, R143). -/
def State.deliver : List Byte → State → Answer
  | [], s => .next s
  | b :: bs, s =>
    match s.takeEvent (.rx b) with
    | .next t => State.deliver bs t
    | .fault r => .fault r
    | .refused r => .refused r

end Sys2Proof.Machine
end

