-- ==== Sys2Proof/Machine/Encoder.lean ====
section
/-!
DEFINITION. The frame encoder's rows: REQ_READ, REQ_WRITE, BUILD and ENCODE_CONTROL (spec 40_frame_encoder.md R110 to R121).
They write no register; their results stand on the ENC port.
-/

namespace Sys2Proof.Machine

/-- REQ_READ: the frame that BUILD READ makes of A and L (R111). -/
def execReqRead (addr len : Half) (s : State) : Answer :=
  .next (s.buildOnEnc .read addr.toNat [] len.toNat)

/-- REQ_WRITE: the frame that BUILD WRITE makes of A, D and L (R112, R115). -/
def execReqWrite (addr len : Half) (payload : List Byte) (s : State) : Answer :=
  .next (s.buildOnEnc .write addr.toNat payload len.toNat)

/-- BUILD (R110 to R115). -/
def execBuild (op : Op) (addr : Nat) (payload : List Byte) (length : Nat) (s : State) : Answer :=
  .next (s.buildOnEnc op addr payload length)

/-- ENCODE_CONTROL (R121). -/
def execEncodeControl (c : Nat) (s : State) : Answer :=
  .next (s.emit (.encControl (encodeControl s.cfg c).1 (encodeControl s.cfg c).2))

end Sys2Proof.Machine
end

