-- ==== Sys2Proof/Machine/Events.lean ====
section
/-!
DEFINITION. The rows of the other events: RX_NONE, RX_NONE_PING, TICK, XPORT_ERR and EVENT_IDLE (spec
41_response_classifier.md R144, R170 to R173). As in Receive.lean, a row's meaning is its rule where its "match" column
holds, and the rule that R174 selects for the same event elsewhere (log entry 9).
-/

namespace Sys2Proof.Machine

/-- RX_NONE with MODE = NORMAL or RX_SEEN = 1 (R170): ignored. -/
def execRxNone (s : State) : Answer :=
  if s.busy ∧ ¬ s.context.failsFast then .next s else s.takeEvent .rxNone

/-- RX_NONE with MODE = PING and RX_SEEN = 0 (R171). -/
def execRxNonePing (s : State) : Answer :=
  if s.busy ∧ s.context.failsFast then .next (s.raise .timeout) else s.takeEvent .rxNone

/-- TICK (R172). -/
def execTick (s : State) : Answer := if s.busy then .next s.tickOnce else s.takeEvent .tick

/-- XPORT_ERR (R173). -/
def execXportErr (s : State) : Answer := if s.busy then .next (s.raise .transportError) else s.takeEvent .xportErr

/-- EVENT_IDLE: in OFF and DONE every event is ignored (R144). -/
def execEventIdle (e : Event) (s : State) : Answer := if s.busy then s.takeEvent e else .next s

end Sys2Proof.Machine
end

