-- ==== Sys2Proof/Machine/Exchange.lean ====
section
/-!
DEFINITION. Opening and abandoning an exchange: BEGIN, LISTEN, RESET (spec 41_response_classifier.md R140 to R142;
70_reset_and_hazards.md R260) and the pseudo-commands, each BEGIN with fixed operands (30_encoding.md R94).
-/

namespace Sys2Proof.Machine

/-- BEGIN (R140, R142). -/
def execBeginExchange (op : Op) (addr : Nat) (payload : List Byte) (length : Nat) (mode : Mode) (s : State) : Answer :=
  .next (s.beginWith op addr payload length mode)

/-- LISTEN (R141, R142). -/
def execListen (op : Op) (mode : Mode) (s : State) : Answer := .next (s.listenWith op mode)

/-- RESET (R260). -/
def execReset (s : State) : Answer := .next s.resetRegisters

/-- READ_PAGE = BEGIN READ, 0, [], PAGE_SIZE, NORMAL (R120). -/
def execReadPage (s : State) : Answer := .next (s.beginWith .read 0 [] pageSize .normal)

/-- WRITE_BYTES A, D = BEGIN WRITE, A, D, |D|, NORMAL (R122). -/
def execWriteBytes (addr : Nat) (payload : List Byte) (s : State) : Answer :=
  .next (s.beginWith .write addr payload payload.length .normal)

/-- WRITE_CONTROL c = WRITE_BYTES of ENCODE_CONTROL(c) (R123). -/
def execWriteControl (c : Nat) (s : State) : Answer :=
  .next (s.beginWith .write (encodeControl s.cfg c).1 (encodeControl s.cfg c).2 (encodeControl s.cfg c).2.length .normal)

/-- PROBE m = BEGIN READ, 0, [], 0, m (R124). -/
def execProbe (mode : Mode) (s : State) : Answer := .next (s.beginWith .read 0 [] 0 mode)

end Sys2Proof.Machine
end

