-- ==== Sys2Proof/Machine/Page.lean ====
section
/-!
DEFINITION. The register-page decoder (spec 42_register_page.md R200 to R216): DECODE_PAGE, the chain from an outcome to a page
(R214), and the flat record (R216).
-/

namespace Sys2Proof.Machine

/-- A 4-byte little-endian field, as its 32-bit pattern (R207 to R211). -/
def wordAt (B : List Byte) (o : Nat) : Option Word := (memRead B o 4).map (BitVec.ofNat 32)

/-- The fields at their offsets (R203 to R210); none where a field would lie outside the buffer. -/
def pageFields (c : Config) (B : List Byte) : Option RegisterPage := do
  let mapVerMinor ← B[c.offMapVer]?
  let mapVerMajor ← B[c.offMapVer + 1]?
  let fwVerMinor ← B[c.offFwVer]?
  let fwVerMajor ← B[c.offFwVer + 1]?
  let control ← B[c.offControl]?
  let status ← B[c.offStatus]?
  let concentration ← wordAt B c.offConc
  let temperature ← wordAt B c.offTemp
  let humidity ← wordAt B c.offHum
  let deviceId ← wordAt B c.offId
  return { mapVerMinor, mapVerMajor, fwVerMinor, fwVerMajor, control, status, concentration, temperature, humidity,
           deviceId }

/-- DECODE_PAGE(B): TOO_SHORT below 256 bytes (R202), else the page (R200). -/
def decodePage (c : Config) (B : List Byte) : Option PageResult :=
  if B.length < pageSize then some .tooShort else (pageFields c B).map .page

/-- DECODE_PAGE: the result on the PAGE port; no register changes (R200, R174). -/
def execDecodePage (buffer : List Byte) (s : State) : Answer :=
  match decodePage s.cfg buffer with
  | some r => .next (s.emit (.page r))
  | none => .fault .readOutOfRange

/-- The result of a page read (R214): the decoder's, after an ACK, and otherwise the outcome itself. -/
inductive ReadResult
  | decoded (r : PageResult)
  | undecoded (x : ExchangeOutcome)
deriving DecidableEq, Repr

/-- The chain of R214, the host's duty of R267. -/
def readResult (c : Config) : ExchangeOutcome → Option ReadResult
  | .ack payload => (decodePage c payload).map .decoded
  | .ready => some (.undecoded .ready)
  | .rejected => some (.undecoded .rejected)
  | .malformed r => some (.undecoded (.malformed r))
  | .timeout => some (.undecoded .timeout)
  | .transportError => some (.undecoded .transportError)

/-- The flat record handed to the logging sink (R216). -/
structure FlatRecord where
  id       : Word
  mapVer   : Byte × Byte
  fwVer    : Byte × Byte
  status   : Byte
  control  : Byte
  floats   : Word × Word × Word
deriving DecidableEq, Repr

/-- "(id, versions, status, control, three float values)", each version as (major, minor) (R216). -/
def RegisterPage.flat (p : RegisterPage) : FlatRecord where
  id      := p.deviceId
  mapVer  := (p.mapVerMajor, p.mapVerMinor)
  fwVer   := (p.fwVerMajor, p.fwVerMinor)
  status  := p.status
  control := p.control
  floats  := (p.concentration, p.temperature, p.humidity)

/-- The 16-bit view of a version pair: major << 8 | minor (R64, R203). -/
def versionWord (minor major : Byte) : Half := major.zeroExtend 16 <<< 8 ||| minor.zeroExtend 16

end Sys2Proof.Machine
end

