-- ==== Sys2Proof/Machine/Receive.lean ====
section
/-!
DEFINITION. The rows of the RX event (spec 41_response_classifier.md R145 to R166). A row's meaning is its rule where its
"match" column holds; in any other state the same event takes the rule that R174 selects there (log entry 9).
-/

namespace Sys2Proof.Machine

/-- RX_SEEKING (R145, R146). -/
def execRxSeeking (b : Byte) (s : State) : Answer :=
  if s.phase = .seeking then .next (s.rxInSeeking b) else s.takeEvent (.rx b)

/-- RX_HAVE_OPCODE (R150 to R155). -/
def execRxHaveOpcode (b : Byte) (s : State) : Answer :=
  if s.phase = .haveOpcode then s.rxInHaveOpcode b else s.takeEvent (.rx b)

/-- RX_SIZING_LO (R156). -/
def execRxSizingLo (b : Byte) (s : State) : Answer :=
  if s.phase = .sizing ∧ s.count = 2 then .next (s.rxLengthLow b) else s.takeEvent (.rx b)

/-- RX_SIZING_HI (R157). -/
def execRxSizingHi (b : Byte) (s : State) : Answer :=
  if s.phase = .sizing ∧ s.count = 3 then s.rxLengthHigh b else s.takeEvent (.rx b)

/-- RX_COLLECTING (R158). -/
def execRxCollecting (b : Byte) (s : State) : Answer :=
  if s.phase = .collecting ∧ s.count + 1 < s.expected then .next (s.take b) else s.takeEvent (.rx b)

/-- RX_COMPLETE (R160 to R166). -/
def execRxComplete (b : Byte) (s : State) : Answer :=
  if s.phase = .collecting ∧ s.count + 1 = s.expected then (s.take b).complete else s.takeEvent (.rx b)

end Sys2Proof.Machine
end

