-- ==== Sys2Proof/Machine/Responses.lean ====
section
/-!
DEFINITION. The response frames of the opcode table (spec 30_encoding.md R83, R84, R89): the transport delivers the frame's
bytes, index 0 first (20_memory.md R63), one RX event each, with no other event between (log entry 8).
-/

namespace Sys2Proof.Machine

/-- RSP_ACK_READ (R84, R163). -/
def execRspAckRead (len : Half) (payload : List Byte) (s : State) : Answer :=
  s.deliver (readAckFrame s.cfg len payload)

/-- RSP_ACK_WRITE (R83, R164). -/
def execRspAckWrite (s : State) : Answer := s.deliver (shortFrame s.cfg s.cfg.pOpAck)

/-- RSP_NACK (R83, R166). -/
def execRspNack (s : State) : Answer := s.deliver (shortFrame s.cfg s.cfg.pOpNack)

/-- RSP_READY (R83, R165). -/
def execRspReady (s : State) : Answer := s.deliver (shortFrame s.cfg s.cfg.pOpReady)

/-- RSP_BAD_OPCODE: START and a byte that is no response opcode (R89, R151). -/
def execRspBadOpcode (x : Byte) (s : State) : Answer := s.deliver [s.cfg.pStart, x]

end Sys2Proof.Machine
end

