-- ==== Sys2Proof/Machine/Dispatch.lean ====
section
/-!
DEFINITION. exec: one arm per row of spec/opcode_table.json, each one call of the row's meaning.
-/

namespace Sys2Proof.Machine

-- one arm per constructor of Instr, in the table's order
def exec (i : Instr) (s : State) : Host.Outcome State Fault Refusal :=
  match i with
  | .reqRead addr len => Sys2Proof.Machine.execReqRead addr len s
  | .reqWrite addr len payload => Sys2Proof.Machine.execReqWrite addr len payload s
  | .rspAckRead len payload => Sys2Proof.Machine.execRspAckRead len payload s
  | .rspAckWrite => Sys2Proof.Machine.execRspAckWrite s
  | .rspNack => Sys2Proof.Machine.execRspNack s
  | .rspReady => Sys2Proof.Machine.execRspReady s
  | .rspBadOpcode x => Sys2Proof.Machine.execRspBadOpcode x s
  | .build op addr payload length => Sys2Proof.Machine.execBuild op addr payload length s
  | .encodeControl c => Sys2Proof.Machine.execEncodeControl c s
  | .beginExchange op addr payload length mode => Sys2Proof.Machine.execBeginExchange op addr payload length mode s
  | .listen op mode => Sys2Proof.Machine.execListen op mode s
  | .decodePage buffer => Sys2Proof.Machine.execDecodePage buffer s
  | .reset => Sys2Proof.Machine.execReset s
  | .rxSeeking b => Sys2Proof.Machine.execRxSeeking b s
  | .rxHaveOpcode b => Sys2Proof.Machine.execRxHaveOpcode b s
  | .rxSizingLo b => Sys2Proof.Machine.execRxSizingLo b s
  | .rxSizingHi b => Sys2Proof.Machine.execRxSizingHi b s
  | .rxCollecting b => Sys2Proof.Machine.execRxCollecting b s
  | .rxComplete b => Sys2Proof.Machine.execRxComplete b s
  | .rxNone => Sys2Proof.Machine.execRxNone s
  | .rxNonePing => Sys2Proof.Machine.execRxNonePing s
  | .tick => Sys2Proof.Machine.execTick s
  | .xportErr => Sys2Proof.Machine.execXportErr s
  | .eventIdle e => Sys2Proof.Machine.execEventIdle e s
  | .readPage => Sys2Proof.Machine.execReadPage s
  | .writeBytes addr payload => Sys2Proof.Machine.execWriteBytes addr payload s
  | .writeControl c => Sys2Proof.Machine.execWriteControl c s
  | .probe mode => Sys2Proof.Machine.execProbe mode s

end Sys2Proof.Machine
end

