-- ==== Sys2Proof/Machine/Step.lean ====
section
/-!
DEFINITION. One step: the oldest pending input is taken, decoded and executed (spec 41_response_classifier.md R143). With
nothing pending, nothing changes (10_state.md R42; log entry 5).
-/

namespace Sys2Proof.Machine

/-- One step. Bytes presented as a request frame that are no frame of the table are refused by name (log entry 12). -/
def step (s : State) : Host.Outcome State Fault Refusal :=
  match s.inputs with
  | [] => .next s
  | inp :: pending =>
    match decode s.cfg s.context inp with
    | .ok (i, left) => exec i { s with inputs := left ++ pending }
    | .error r => .refused (.undecodable r)

/-- s with a frame of the opcode table as the next input (log entry 14): a request frame at the encoder; a response frame
delivered in an exchange of the operation it answers, opened as LISTEN opens one. -/
def State.withFetchWord (s : State) (nbits w : Nat) : State :=
  let F := wordBytes nbits w
  match decodeRequest s.cfg F with
  | .ok _ => { s with inputs := .request F :: s.inputs }
  | .error _ =>
    match decodeResponse s.cfg (some .read) F with
    | .ok _ => { s.openExchange .read .normal with inputs := delivery F :: s.inputs }
    | .error _ =>
      match decodeResponse s.cfg (some .write) F with
      | .ok _ => { s.openExchange .write .normal with inputs := delivery F :: s.inputs }
      | .error _ => { s with inputs := .request F :: s.inputs }

end Sys2Proof.Machine
end

