-- ==== Sys2Proof/Machine/Float32.lean ====
section
/-!
DEFINITION. The numeric reading of a binary32 pattern (spec 42_register_page.md R211). The block stores the pattern and does no
arithmetic on it; this reading is for statements about what a stored pattern means. PRESUMED: the spec marks it as general
knowledge (log entry 19).
-/

namespace Sys2Proof.Machine

/-- The classes of a binary32 pattern (R211). -/
inductive FloatClass
  | zero
  | subnormal
  | normal
  | infinity
  | quietNaN
  | signallingNaN
deriving DecidableEq, Repr

/-- s = w[31]. -/
def f32Sign (w : Word) : Nat := (w.extractLsb' 31 1).toNat

/-- e = w[30:23]. -/
def f32Exponent (w : Word) : Nat := (w.extractLsb' 23 8).toNat

/-- f = w[22:0]. -/
def f32Fraction (w : Word) : Nat := (w.extractLsb' 0 23).toNat

/-- The class of a pattern; a NaN is quiet when w[22] = 1 (R211). -/
def f32Class (w : Word) : FloatClass :=
  if f32Exponent w = 255 then
    if f32Fraction w = 0 then .infinity else if w.getLsbD 22 then .quietNaN else .signallingNaN
  else if f32Exponent w = 0 then
    if f32Fraction w = 0 then .zero else .subnormal
  else .normal

/-- The integer m and the exponent k of a finite pattern, whose value is m × 2^k; none for infinity and NaN. -/
def f32Scaled (w : Word) : Option (Int × Int) :=
  if f32Exponent w = 255 then none
  else if f32Exponent w = 0 then some ((-1) ^ f32Sign w * (f32Fraction w : Int), -149)
  else some ((-1) ^ f32Sign w * (2 ^ 23 + (f32Fraction w : Int)), (f32Exponent w : Int) - 150)

end Sys2Proof.Machine
end

