-- ==== Sys2Proof/Safety.lean ====
section
/-!
DEFINITION. What statements about runs are said in: the invariant of reachable states (spec 10_state.md R46, with the register
rules R32 to R39), the exchange registers (R176), and ticks.
-/

namespace Sys2Proof.Machine

/-- The opcode byte of an accepted response (R86). -/
def opcodeOf (c : Config) : RxKind → Byte
  | .ack => c.pOpAck
  | .nack => c.pOpNack
  | .ready => c.pOpReady

/-- The registers hold their reset values: "no exchange has begun since reset" (R31, R45). -/
structure State.AtReset (s : State) : Prop where
  reqOp    : s.reqOp = none
  rxKind   : s.rxKind = none
  mode     : s.mode = none
  buf      : s.buf = []
  count    : s.count = 0
  expected : s.expected = 0
  rxSeen   : s.rxSeen = false
  elapsed  : s.elapsed = 0
  outcome  : s.outcome = none

/-- EXPECTED is the length that the accepted frame has (R88): OVERHEAD + L for a read-ACK, SHORT_LEN else. -/
def State.ExpectedFits (s : State) : Prop :=
  if s.rxKind = some .ack ∧ s.reqOp = some .read then
    ∃ L, memRead s.buf 2 2 = some L ∧ s.expected = s.cfg.overhead + L
  else s.expected = s.cfg.shortLen

/-- An opcode has been accepted: BUF opens with START and that opcode (R33, R150). -/
def State.OpcodeHeld (s : State) : Prop :=
  ∃ k, s.rxKind = some k ∧ s.buf[0]? = some s.cfg.pStart ∧ s.buf[1]? = some (opcodeOf s.cfg k)

/-- The invariant of reachable states. I1 to I7 are R46's; the others are what the register rules add and what makes the
invariant inductive. -/
structure State.Inv (s : State) : Prop where
  /-- I1. -/
  countIsLength : s.count = s.buf.length
  /-- I2. -/
  seekingEmpty : s.phase = .seeking → s.count = 0
  /-- I3. -/
  startBuffered : s.phase = .haveOpcode → s.count = 1 ∧ s.buf[0]? = some s.cfg.pStart
  /-- I4. -/
  sizing : s.phase = .sizing →
    s.reqOp = some .read ∧ s.rxKind = some .ack ∧ (s.count = 2 ∨ s.count = 3) ∧ s.expected = s.cfg.overhead
  /-- I5. -/
  collecting : s.phase = .collecting → 2 ≤ s.count ∧ s.count < s.expected ∧ s.expected ≤ s.cfg.maxFrame
  /-- I6. -/
  withinBudget : s.busy = true → s.elapsed < s.cfg.budgetTicks
  /-- I7. -/
  doneIffOutcome : s.phase = .done ↔ s.outcome ≠ none
  /-- OFF is the reset state (R31). -/
  offAtReset : s.phase = .off → s.AtReset
  /-- REQ_OP and MODE are latched when an exchange opens (R32, R35). -/
  latched : s.busy = true → s.reqOp ≠ none ∧ s.mode ≠ none
  /-- RX_KIND holds no value before the opcode (R33), and EXPECTED is not yet known (R36). -/
  noKindYet : s.phase = .seeking ∨ s.phase = .haveOpcode → s.rxKind = none ∧ s.expected = 0
  /-- RX_KIND and BUF after the opcode (R33). -/
  opcodeHeld : s.phase = .sizing ∨ s.phase = .collecting → s.OpcodeHeld
  /-- EXPECTED while collecting (R88). -/
  expectedFits : s.phase = .collecting → s.ExpectedFits
  /-- RX_SEEN = 0 implies SEEKING (R171). -/
  unseenSeeks : s.busy = true → s.rxSeen = false → s.phase = .seeking
  /-- BUF keeps within its capacity (R34), EXPECTED within its width (R36), ELAPSED within the budget (R38). -/
  capacity : s.count ≤ s.cfg.maxFrame ∧ s.expected ≤ s.cfg.maxFrame ∧ s.elapsed ≤ s.cfg.budgetTicks
  /-- The payload of an ACK has at most 0xFFFF bytes (R230). -/
  ackFits : ∀ P, s.outcome = some (.ack P) → P.length ≤ maxField
  /-- OVER_LENGTH never arises (R159, R231). -/
  neverOverLength : s.outcome ≠ some (.malformed .overLength)

/-- The exchange registers: those BEGIN and LISTEN write (R176). -/
structure ExchangeRegs where
  phase    : Phase
  reqOp    : Option Op
  rxKind   : Option RxKind
  mode     : Option Mode
  buf      : List Byte
  count    : Nat
  expected : Nat
  rxSeen   : Bool
  elapsed  : Nat
  outcome  : Option ExchangeOutcome
deriving DecidableEq, Repr

/-- The exchange registers of a state. -/
def State.exchangeRegs (s : State) : ExchangeRegs where
  phase    := s.phase
  reqOp    := s.reqOp
  rxKind   := s.rxKind
  mode     := s.mode
  buf      := s.buf
  count    := s.count
  expected := s.expected
  rxSeen   := s.rxSeen
  elapsed  := s.elapsed
  outcome  := s.outcome

/-- How many of the events are TICK. -/
def ticks (es : List Event) : Nat := es.count .tick

/-- BEGIN, LISTEN and the pseudo-commands: the instructions that open an exchange (R71, R94). -/
def opensExchange : Instr → Bool
  | .beginExchange _ _ _ _ _ => true
  | .listen _ _ => true
  | .readPage => true
  | .writeBytes _ _ => true
  | .writeControl _ => true
  | .probe _ => true
  | .reqRead _ _ => false
  | .reqWrite _ _ _ => false
  | .rspAckRead _ _ => false
  | .rspAckWrite => false
  | .rspNack => false
  | .rspReady => false
  | .rspBadOpcode _ => false
  | .build _ _ _ _ => false
  | .encodeControl _ => false
  | .decodePage _ => false
  | .reset => false
  | .rxSeeking _ => false
  | .rxHaveOpcode _ => false
  | .rxSizingLo _ => false
  | .rxSizingHi _ => false
  | .rxCollecting _ => false
  | .rxComplete _ => false
  | .rxNone => false
  | .rxNonePing => false
  | .tick => false
  | .xportErr => false
  | .eventIdle _ => false

/-- The rows of a single event, with the event. -/
def eventOf : Instr → Option Event
  | .rxSeeking b => some (.rx b)
  | .rxHaveOpcode b => some (.rx b)
  | .rxSizingLo b => some (.rx b)
  | .rxSizingHi b => some (.rx b)
  | .rxCollecting b => some (.rx b)
  | .rxComplete b => some (.rx b)
  | .rxNone => some .rxNone
  | .rxNonePing => some .rxNone
  | .tick => some .tick
  | .xportErr => some .xportErr
  | .eventIdle e => some e
  | .reqRead _ _ => none
  | .reqWrite _ _ _ => none
  | .rspAckRead _ _ => none
  | .rspAckWrite => none
  | .rspNack => none
  | .rspReady => none
  | .rspBadOpcode _ => none
  | .build _ _ _ _ => none
  | .encodeControl _ => none
  | .beginExchange _ _ _ _ _ => none
  | .listen _ _ => none
  | .decodePage _ => none
  | .reset => none
  | .readPage => none
  | .writeBytes _ _ => none
  | .writeControl _ => none
  | .probe _ => none

end Sys2Proof.Machine
end

