-- ==== Sys2Proof/Certificates/Slice0/Obligations.lean ====
section
/-!
DEFINITION. The statements for the provers, from the numbered rules of the spec. Each says what the block does in the terms of
the spec: the registers a rule writes stand as a record update of the state, so every register not named is unchanged, as
are the configuration, the pending inputs and REFUSED; what a rule emits is what `emitted` gains. The block has no
addressable memory (R60); BUF is a register.
-/

open Sys2Proof Sys2Proof.Machine

/-! ### Reset, step, decoding -/

/-- R45 with R260: the reset values, at power-on and after RESET, which keeps REFUSED, emits nothing and leaves DONE and
BUSY 0. "The source defines no reset. Every value in this table is the spec's own choice" (R45, decision D16). -/
def Obligations.ResetGivesTheResetValues : Prop :=
  (State.reset.phase = .off ∧ State.reset.reqOp = none ∧ State.reset.rxKind = none ∧ State.reset.mode = none ∧
    State.reset.buf = [] ∧ State.reset.count = 0 ∧ State.reset.expected = 0 ∧ State.reset.rxSeen = false ∧
    State.reset.elapsed = 0 ∧ State.reset.outcome = none ∧ State.reset.refused = false) ∧
  ∀ s : State,
    exec .reset s = .next { s with
      phase := .off, reqOp := none, rxKind := none, mode := none, buf := [], count := 0, expected := 0,
      rxSeen := false, elapsed := 0, outcome := none } ∧
    ∀ t, exec .reset s = .next t → t.done = false ∧ t.busy = false

/-- R263, R8, R9, R12, R201: every configuration passes the checks, and parameters that fail one are refused at
construction. -/
def Obligations.EveryConfigurationIsWellFormed : Prop :=
  (∀ c : Config,
    [c.pStart, c.pEnd, c.pOpRead, c.pOpWrite, c.pOpAck, c.pOpNack, c.pOpReady].Pairwise (· ≠ ·) ∧
    (c.checkLen = 0 ∨ c.checkLen = 1) ∧ 1 ≤ c.budgetTicks ∧
    c.offMapVer + 2 ≤ 256 ∧ c.offFwVer + 2 ≤ 256 ∧ c.offControl + 3 ≤ 256 ∧ c.offConc + 4 ≤ 256 ∧
    c.offTemp + 4 ≤ 256 ∧ c.offHum + 4 ≤ 256 ∧ c.offId + 4 ≤ 256 ∧ c.offStatus = c.offControl + 2 ∧
    [(c.offMapVer, 2), (c.offFwVer, 2), (c.offControl, 1), (c.offControl + 1, 1), (c.offStatus, 1), (c.offConc, 4),
      (c.offTemp, 4), (c.offHum, 4), (c.offId, 4)].Pairwise
      fun a b : Nat × Nat => ∀ k, ¬ (a.1 ≤ k ∧ k < a.1 + a.2 ∧ b.1 ≤ k ∧ k < b.1 + b.2)) ∧
  ∀ p : Params, Config.ofParams p = none ↔ p.wellFormed = false

/-- R42: with nothing pending, nothing changes (log entry 5). -/
def Obligations.NothingAdvancesWithoutAnEvent : Prop :=
  ∀ s : State, s.inputs = [] → step s = .next s

/-- R143: a step takes the oldest input and runs the row it decodes to, with the rest of the inputs pending; bytes that are
no request frame are refused by name (log entry 12). -/
def Obligations.StepRunsTheDecodedInstruction : Prop :=
  ∀ (s : State) (inp : Input) (pending : List Input), s.inputs = inp :: pending →
    (∀ i left, decode s.cfg s.context inp = .ok (i, left) → step s = exec i { s with inputs := left ++ pending }) ∧
    (∀ r, decode s.cfg s.context inp = .error r → step s = .refused (.undecodable r))

/-- Decode and encode agree: under every configuration and in every context that selects the row, a well-formed
instruction's encoding decodes to that instruction, whole. -/
def Obligations.DecodeEncodeIsIdentity : Prop :=
  ∀ (c : Config) (x : Context) (i : Instr), i.wellFormed c = true → x.selects i = true →
    decode c x (encode c i) = .ok (i, [])

/-- Bytes that decode to a frame are that frame's encoding, and the instruction is well-formed: no other bytes stand for
it. -/
def Obligations.DecodedFramesEncodeBack : Prop :=
  ∀ (c : Config) (F : Frame) (i : Instr),
    (decodeRequest c F = .ok i → encode c i = .request F ∧ i.wellFormed c = true) ∧
    ∀ op, decodeResponse c op F = .ok i → encode c i = delivery F ∧ i.wellFormed c = true

/-- Frames written out from R81 to R84, R89 with CHECK_LEN = 0, and the rows they decode to. -/
def Obligations.WrittenOutFramesDecode : Prop :=
  ∀ c : Config, c.checkLen = 0 →
    decodeRequest c [c.pStart, c.pOpRead, 0x34, 0x12, 0x00, 0x01, c.pEnd] = .ok (.reqRead 0x1234 0x0100) ∧
    decodeRequest c [c.pStart, c.pOpWrite, 0x10, 0x00, 0x02, 0x00, 0xAA, 0xBB, c.pEnd] =
      .ok (.reqWrite 0x0010 2 [0xAA, 0xBB]) ∧
    decodeResponse c (some .read) [c.pStart, c.pOpAck, 0x03, 0x00, 0x11, 0x22, 0x33, c.pEnd] =
      .ok (.rspAckRead 3 [0x11, 0x22, 0x33]) ∧
    decodeResponse c (some .write) [c.pStart, c.pOpAck, c.pEnd] = .ok .rspAckWrite ∧
    decodeResponse c none [c.pStart, c.pOpNack, c.pEnd] = .ok .rspNack ∧
    decodeResponse c none [c.pStart, c.pOpReady, c.pEnd] = .ok .rspReady ∧
    decodeResponse c none [c.pStart, c.pOpRead] = .ok (.rspBadOpcode c.pOpRead)

/-! ### Operands and frames -/

/-- R15, R62: MemRead(B, o, n) is the sum over k < n of B[o+k] << 8k, and is defined only when o + n <= |B|. -/
def Obligations.MemReadIsTheLittleEndianSum : Prop :=
  ∀ (B : List Byte) (o n : Nat),
    (o + n ≤ B.length →
      memRead B o n = some (((List.range n).map fun k => (B[o + k]?.getD 0).toNat <<< (8 * k)).sum)) ∧
    (B.length < o + n → memRead B o n = none)

/-- R10, which the spec marks as derived from R81 to R84: the lengths are those of the frames. -/
def Obligations.FrameLengths : Prop :=
  ∀ c : Config,
    (∀ x, (shortFrame c x).length = 3 + c.checkLen) ∧ c.shortLen = 3 + c.checkLen ∧
    (∀ l, (readAckFrame c l []).length = 5 + c.checkLen) ∧ c.overhead = 5 + c.checkLen ∧
    (∀ l d, lengthAgrees l d = true → (readAckFrame c l d).length ≤ c.maxFrame) ∧
    c.maxFrame = c.overhead + 0xFFFF ∧
    (∀ op a l d, (requestFrame c op a l d).length = 7 + d.length + c.checkLen) ∧
    ∀ p, c.reqLen p = 7 + p + c.checkLen

/-- R81: the bytes of a read request, index by index, on the ENC port; REQ_READ changes nothing else. That the row is
BUILD, with the frame on ENC, is the model's choice (log entry 8); what CHECK covers is the spec's own choice (R85, decision
D4). -/
def Obligations.ReadRequestLayout : Prop :=
  ∀ (s : State) (a l : Half), ∃ F,
    exec (.reqRead a l) s = .next { s with emitted := s.emitted ++ [.encFrame F] } ∧
    F.length = 7 + s.cfg.checkLen ∧ F[0]? = some s.cfg.pStart ∧ F[1]? = some s.cfg.pOpRead ∧
    F[2]? = some (a.extractLsb' 0 8) ∧ F[3]? = some (a.extractLsb' 8 8) ∧
    F[4]? = some (l.extractLsb' 0 8) ∧ F[5]? = some (l.extractLsb' 8 8) ∧
    (s.cfg.checkLen = 1 → F[6]? = some (Config.checksum (slice F 1 6))) ∧
    F[6 + s.cfg.checkLen]? = some s.cfg.pEnd

/-- R82: the bytes of a write request, index by index, on the ENC port; REQ_WRITE changes nothing else. A payload above
0xFFFF bytes is refused (R112, R114). That the row is BUILD, with the frame on ENC, is the model's choice (log entry 8);
what CHECK covers is the spec's own choice (R85, decision D4). -/
def Obligations.WriteRequestLayout : Prop :=
  ∀ (s : State) (a l : Half) (d : List Byte),
    (0xFFFF < d.length → exec (.reqWrite a l d) s = .next { s with refused := true }) ∧
    (d.length ≤ 0xFFFF → ∃ F, exec (.reqWrite a l d) s = .next { s with emitted := s.emitted ++ [.encFrame F] } ∧
    F.length = 7 + d.length + s.cfg.checkLen ∧ F[0]? = some s.cfg.pStart ∧ F[1]? = some s.cfg.pOpWrite ∧
    F[2]? = some (a.extractLsb' 0 8) ∧ F[3]? = some (a.extractLsb' 8 8) ∧
    F[4]? = some (l.extractLsb' 0 8) ∧ F[5]? = some (l.extractLsb' 8 8) ∧
    (∀ k, k < d.length → F[6 + k]? = d[k]?) ∧
    (s.cfg.checkLen = 1 → F[6 + d.length]? = some (Config.checksum (slice F 1 (6 + d.length)))) ∧
    F[6 + d.length + s.cfg.checkLen]? = some s.cfg.pEnd)

/-- R111, R113: BUILD READ, its frame or its refusal. What CHECK covers is the spec's own choice (decision D4). -/
def Obligations.BuildRead : Prop :=
  ∀ (s : State) (A L : Nat) (d : List Byte),
    (d ≠ [] ∨ 2 ^ 16 ≤ A ∨ 2 ^ 16 ≤ L → exec (.build .read A d L) s = .next { s with refused := true }) ∧
    (A < 2 ^ 16 → L < 2 ^ 16 →
      let body : List Byte :=
        [s.cfg.pOpRead, BitVec.ofNat 8 A, BitVec.ofNat 8 (A / 256), BitVec.ofNat 8 L, BitVec.ofNat 8 (L / 256)]
      exec (.build .read A [] L) s = .next { s with
        emitted := s.emitted ++ [.encFrame ([s.cfg.pStart] ++ body ++
          (if s.cfg.checkLen = 1 then [Config.checksum body] else []) ++ [s.cfg.pEnd])] })

/-- R112, R113, R115: BUILD WRITE, its frame (LEN is the caller's length even where the payload's differs) or its refusal.
What CHECK covers is the spec's own choice (decision D4). -/
def Obligations.BuildWrite : Prop :=
  ∀ (s : State) (A L : Nat) (d : List Byte),
    (0xFFFF < d.length ∨ 2 ^ 16 ≤ A ∨ 2 ^ 16 ≤ L → exec (.build .write A d L) s = .next { s with refused := true }) ∧
    (d.length ≤ 0xFFFF → A < 2 ^ 16 → L < 2 ^ 16 →
      let body : List Byte :=
        [s.cfg.pOpWrite, BitVec.ofNat 8 A, BitVec.ofNat 8 (A / 256), BitVec.ofNat 8 L, BitVec.ofNat 8 (L / 256)] ++ d
      exec (.build .write A d L) s = .next { s with
        emitted := s.emitted ++ [.encFrame ([s.cfg.pStart] ++ body ++
          (if s.cfg.checkLen = 1 then [Config.checksum body] else []) ++ [s.cfg.pEnd])] })

/-- R116, which the spec marks as derived from R111 and R112: a built request decodes back to its operands. -/
def Obligations.BuiltRequestDecodesBack : Prop :=
  ∀ (s : State) (op : Op) (A L : Nat) (d : List Byte) (F : Frame),
    exec (.build op A d L) s = .next { s with emitted := s.emitted ++ [.encFrame F] } →
    memRead F 2 2 = some A ∧ memRead F 4 2 = some L ∧ F[0]? = some s.cfg.pStart ∧
    F[F.length - 1]? = some s.cfg.pEnd ∧
    F[1]? = some (match op with | .read => s.cfg.pOpRead | .write => s.cfg.pOpWrite)

/-- R121: ENCODE_CONTROL gives (CONTROL_ADDR, [c mod 256]) on the ENC port, for every c. That CONTROL_ADDR is OFF_CONTROL
is the spec's own choice (R11, decision D19; log entry 24). -/
def Obligations.EncodeControlResult : Prop :=
  ∀ (s : State) (c : Nat), ∃ b : Byte, b.toNat = c % 256 ∧
    exec (.encodeControl c) s = .next { s with emitted := s.emitted ++ [.encControl s.cfg.offControl [b]] }

/-- R110, R174: the combinational rows change no register but REFUSED, and no pending input. -/
def Obligations.CombinationalRowsKeepRegisters : Prop :=
  ∀ (i : Instr) (s t : State),
    (match i with
      | .reqRead _ _ | .reqWrite _ _ _ | .build _ _ _ _ | .encodeControl _ | .decodePage _ => True
      | _ => False) →
    exec i s = .next t → { t with refused := s.refused, emitted := s.emitted } = s

/-! ### Opening an exchange -/

/-- R140: BEGIN refused while BUSY or where BUILD is refused; else the registers are written, PHASE is SEEKING and the frame
of BUILD is handed to TX. -/
def Obligations.BeginOpensAnExchange : Prop :=
  ∀ (s : State) (op : Op) (A L : Nat) (d : List Byte) (m : Mode),
    (s.busy = true → exec (.beginExchange op A d L m) s = .next { s with refused := true }) ∧
    ((op = .read ∧ d ≠ []) ∨ 0xFFFF < d.length ∨ 0xFFFF < A ∨ 0xFFFF < L →
      exec (.beginExchange op A d L m) s = .next { s with refused := true }) ∧
    (s.busy = false → (op = .read → d = []) → d.length ≤ 0xFFFF → A ≤ 0xFFFF → L ≤ 0xFFFF →
      exec (.beginExchange op A d L m) s = .next { s with
        reqOp := some op, mode := some m, buf := [], count := 0, expected := 0, rxSeen := false, elapsed := 0,
        rxKind := none, outcome := none, phase := .seeking,
        emitted := s.emitted ++ [.tx (requestFrame s.cfg op (BitVec.ofNat 16 A) (BitVec.ofNat 16 L) d)] })

/-- R141: LISTEN as BEGIN, with no frame. "LISTEN is the spec's reading of "read-only"" (R141, decision D14; log entry
24). -/
def Obligations.ListenOpensAnExchange : Prop :=
  ∀ (s : State) (op : Op) (m : Mode),
    (s.busy = true → exec (.listen op m) s = .next { s with refused := true }) ∧
    (s.busy = false → exec (.listen op m) s = .next { s with
      reqOp := some op, mode := some m, buf := [], count := 0, expected := 0, rxSeen := false, elapsed := 0,
      rxKind := none, outcome := none, phase := .seeking })

/-- R142: every command that would open an exchange while one is active is refused: REFUSED is set, nothing else changes. -/
def Obligations.NoOverlapOfExchanges : Prop :=
  ∀ (s : State) (i : Instr), s.busy = true → opensExchange i = true → exec i s = .next { s with refused := true }

/-- R94: the pseudo-commands are their expansions, in every state. PROBE's address 0 is the spec's own choice (R124,
decision D31), and so is OFF_CONTROL as CONTROL_ADDR (R11, decision D19; log entry 24). -/
def Obligations.PseudoCommandsExpand : Prop :=
  ∀ (s : State) (A : Nat) (d : List Byte) (c : Nat) (m : Mode),
    exec .readPage s = exec (.beginExchange .read 0 [] 256 .normal) s ∧
    exec (.writeBytes A d) s = exec (.beginExchange .write A d d.length .normal) s ∧
    exec (.writeControl c) s = exec (.writeBytes s.cfg.offControl [BitVec.ofNat 8 (c % 256)]) s ∧
    exec (.probe m) s = exec (.beginExchange .read 0 [] 0 m) s

/-- R120, R122, R123, R124: the pseudo-commands, from a state that is not BUSY, open the exchange and send their frames,
written out. PROBE's address 0 is the spec's own choice (R124, decision D31), as are OFF_CONTROL for CONTROL_ADDR (R11,
decision D19) and what CHECK covers (R85, decision D4); log entry 24. -/
def Obligations.PseudoCommandsSendTheirFrames : Prop :=
  ∀ (s : State) (A : Nat) (d : List Byte) (c : Nat) (m : Mode), s.busy = false →
    let opened (op : Op) (m : Mode) (body : List Byte) : State := { s with
      reqOp := some op, mode := some m, buf := [], count := 0, expected := 0, rxSeen := false, elapsed := 0,
      rxKind := none, outcome := none, phase := .seeking,
      emitted := s.emitted ++ [.tx ([s.cfg.pStart] ++ body ++
        (if s.cfg.checkLen = 1 then [Config.checksum body] else []) ++ [s.cfg.pEnd])] }
    exec .readPage s = .next (opened .read .normal [s.cfg.pOpRead, 0x00, 0x00, 0x00, 0x01]) ∧
    exec (.probe m) s = .next (opened .read m [s.cfg.pOpRead, 0x00, 0x00, 0x00, 0x00]) ∧
    exec (.writeControl c) s = .next (opened .write .normal
      [s.cfg.pOpWrite, BitVec.ofNat 8 s.cfg.offControl, 0x00, 0x01, 0x00, BitVec.ofNat 8 c]) ∧
    (A ≤ 0xFFFF → d.length ≤ 0xFFFF → exec (.writeBytes A d) s = .next (opened .write .normal
      ([s.cfg.pOpWrite, BitVec.ofNat 8 A, BitVec.ofNat 8 (A / 256), BitVec.ofNat 8 d.length,
        BitVec.ofNat 8 (d.length / 256)] ++ d)))

/-! ### RX, rule by rule -/

/-- R145, R146: in SEEKING, START is buffered and any other byte dropped. -/
def Obligations.SeekingTakesOnlyStart : Prop :=
  ∀ (s : State) (b : Byte), s.phase = .seeking →
    (b = s.cfg.pStart →
      exec (.rxSeeking b) s = .next { s with rxSeen := true, buf := [b], count := 1, phase := .haveOpcode }) ∧
    (b ≠ s.cfg.pStart → exec (.rxSeeking b) s = .next { s with rxSeen := true })

/-- R150, R151: an opcode byte that is no response opcode ends the exchange. -/
def Obligations.BadOpcodeEndsTheExchange : Prop :=
  ∀ (s : State) (b : Byte), s.phase = .haveOpcode →
    b ≠ s.cfg.pOpAck → b ≠ s.cfg.pOpNack → b ≠ s.cfg.pOpReady →
    exec (.rxHaveOpcode b) s = .next { s with
      rxSeen := true, buf := s.buf ++ [b], count := s.count + 1, phase := .done,
      outcome := some (.malformed .badOpcode), emitted := s.emitted ++ [.close] }

/-- R150, R152 to R155: what an accepted opcode writes; an ACK goes by REQ_OP. -/
def Obligations.AcceptedOpcodeSetsTheLength : Prop :=
  ∀ s : State, s.phase = .haveOpcode →
    let after (b : Byte) (k : RxKind) (n : Nat) (p : Phase) : State := { s with
      rxSeen := true, buf := s.buf ++ [b], count := s.count + 1, rxKind := some k, expected := n, phase := p }
    (s.reqOp = some .read →
      exec (.rxHaveOpcode s.cfg.pOpAck) s = .next (after s.cfg.pOpAck .ack (5 + s.cfg.checkLen) .sizing)) ∧
    (s.reqOp = some .write →
      exec (.rxHaveOpcode s.cfg.pOpAck) s = .next (after s.cfg.pOpAck .ack (3 + s.cfg.checkLen) .collecting)) ∧
    exec (.rxHaveOpcode s.cfg.pOpNack) s = .next (after s.cfg.pOpNack .nack (3 + s.cfg.checkLen) .collecting) ∧
    exec (.rxHaveOpcode s.cfg.pOpReady) s = .next (after s.cfg.pOpReady .ready (3 + s.cfg.checkLen) .collecting)

/-- R156, R157: the low length byte is buffered; the high one revises EXPECTED to OVERHEAD + L. (BUF holds COUNT bytes by
invariant I1.) -/
def Obligations.LengthBytesReviseTheLength : Prop :=
  ∀ (s : State) (b : Byte), s.phase = .sizing →
    (s.count = 2 → exec (.rxSizingLo b) s = .next { s with rxSeen := true, buf := s.buf ++ [b], count := 3 }) ∧
    (∀ lo, s.count = 3 → s.buf.length = 3 → s.buf[2]? = some lo →
      exec (.rxSizingHi b) s = .next { s with
        rxSeen := true, buf := s.buf ++ [b], count := 4,
        expected := 5 + s.cfg.checkLen + (lo.toNat + 256 * b.toNat), phase := .collecting })

/-- R158: a byte that does not complete the frame is appended. -/
def Obligations.CollectingAppends : Prop :=
  ∀ (s : State) (b : Byte), s.phase = .collecting → s.count + 1 < s.expected →
    exec (.rxCollecting b) s = .next { s with rxSeen := true, buf := s.buf ++ [b], count := s.count + 1 }

/-- R159: the over-length guard, and that it never fires in a state of the invariant (I5), as the spec derives. -/
def Obligations.OverLengthGuard : Prop :=
  (∀ (s : State) (b : Byte), s.phase = .collecting → s.expected < s.count + 1 →
    exec (.rxCollecting b) s = .next { s with
      rxSeen := true, buf := s.buf ++ [b], count := s.count + 1, phase := .done,
      outcome := some (.malformed .overLength), emitted := s.emitted ++ [.close] }) ∧
  ∀ s : State, s.Inv → s.phase = .collecting → ¬ s.expected < s.count + 1

/-- R161, R162, R236: a frame that completes with a last byte other than END is MALFORMED(BAD_END), whatever its kind and
its check byte; with END right and CHECK_LEN = 1, a byte before END that is not the checksum of BUF[1 .. EXPECTED-2) makes
it MALFORMED(BAD_CHECK). (BUF holds COUNT bytes by invariant I1.) The order of the two tests is the spec's own choice (R160,
decision D5), as is the covered range (R85, decision D4); log entry 24. -/
def Obligations.CompletionTestsInOrder : Prop :=
  ∀ (s : State) (b : Byte), s.phase = .collecting → s.count + 1 = s.expected → s.buf.length = s.count →
    let failed (r : MalformedReason) : State := { s with
      rxSeen := true, buf := s.buf ++ [b], count := s.count + 1, phase := .done, outcome := some (.malformed r),
      emitted := s.emitted ++ [.close] }
    (b ≠ s.cfg.pEnd → exec (.rxComplete b) s = .next (failed .badEnd)) ∧
    (b = s.cfg.pEnd → s.cfg.checkLen = 1 →
      (s.buf ++ [b])[s.expected - 2]? ≠ some (Config.checksum (slice (s.buf ++ [b]) 1 (s.expected - 2))) →
      exec (.rxComplete b) s = .next (failed .badCheck))

/-- R160, R163 to R166: a frame that completes with both tests passed, by RX_KIND and REQ_OP. (BUF holds COUNT bytes by
invariant I1.) The range that the check byte covers is the spec's own choice (R85, decision D4; log entry 24). -/
def Obligations.CompletionByKind : Prop :=
  ∀ s : State, s.phase = .collecting → s.count + 1 = s.expected → s.buf.length = s.count →
    (s.cfg.checkLen = 1 →
      (s.buf ++ [s.cfg.pEnd])[s.expected - 2]? =
        some (Config.checksum (slice (s.buf ++ [s.cfg.pEnd]) 1 (s.expected - 2)))) →
    let finished (x : ExchangeOutcome) : State := { s with
      rxSeen := true, buf := s.buf ++ [s.cfg.pEnd], count := s.count + 1, phase := .done, outcome := some x,
      emitted := s.emitted ++ [.close] }
    (∀ lo hi, s.rxKind = some .ack → s.reqOp = some .read → s.buf[2]? = some lo → s.buf[3]? = some hi →
      exec (.rxComplete s.cfg.pEnd) s = .next (finished
        (.ack (slice (s.buf ++ [s.cfg.pEnd]) 4 (4 + (lo.toNat + 256 * hi.toNat)))))) ∧
    (s.rxKind = some .ack → s.reqOp = some .write → exec (.rxComplete s.cfg.pEnd) s = .next (finished (.ack []))) ∧
    (s.rxKind = some .ready → exec (.rxComplete s.cfg.pEnd) s = .next (finished .ready)) ∧
    (s.rxKind = some .nack → exec (.rxComplete s.cfg.pEnd) s = .next (finished .rejected))

/-! ### The other events -/

/-- R170, R171: an empty poll in an active phase changes nothing with MODE = NORMAL or RX_SEEN = 1, and ends the exchange
with TIMEOUT with MODE = PING and RX_SEEN = 0. That it always does, where the source says "allowed to fail fast", is the
spec's own reading (decision D11; log entry 24). -/
def Obligations.EmptyPolls : Prop :=
  ∀ s : State, s.busy = true →
    (s.mode = some .normal ∨ s.rxSeen = true → exec .rxNone s = .next s) ∧
    (s.mode = some .ping → s.rxSeen = false →
      exec .rxNonePing s = .next { s with
        phase := .done, outcome := some .timeout, emitted := s.emitted ++ [.close] })

/-- R172: a TICK counts, and the one that reaches BUDGET_TICKS ends the exchange. -/
def Obligations.TickCountsTheBudget : Prop :=
  ∀ s : State, s.busy = true →
    (s.elapsed + 1 ≠ s.cfg.budgetTicks → exec .tick s = .next { s with elapsed := s.elapsed + 1 }) ∧
    (s.elapsed + 1 = s.cfg.budgetTicks → exec .tick s = .next { s with
      elapsed := s.elapsed + 1, phase := .done, outcome := some .timeout, emitted := s.emitted ++ [.close] })

/-- R173: a transport error in an active phase ends the exchange with TRANSPORT_ERROR. -/
def Obligations.TransportErrorEndsTheExchange : Prop :=
  ∀ s : State, s.busy = true →
    exec .xportErr s = .next { s with
      phase := .done, outcome := some .transportError, emitted := s.emitted ++ [.close] }

/-- R144: in OFF and DONE every event is the row EVENT_IDLE, and changes and emits nothing. This is the spec's own choice
(decisions D12 and D29; log entry 24). -/
def Obligations.EventsAreIgnoredWhenIdle : Prop :=
  ∀ (s : State) (e : Event), s.phase = .off ∨ s.phase = .done →
    decode s.cfg s.context (.event e) = .ok (.eventIdle e, []) ∧ exec (.eventIdle e) s = .next s

/-- R174: in every state, each row of an event does what the dispatch selects for that event there (log entry 9). -/
def Obligations.EventRowsAgreeWithTheDispatch : Prop :=
  ∀ (i : Instr) (e : Event) (s : State), eventOf i = some e → exec i s = s.takeEvent e

/-! ### Response frames -/

/-- R163, R167: a read-ACK with L payload bytes, embedded length L, the right check byte and END, delivered to an open
Read exchange, gives ACK with exactly that payload, as the spec derives. The bytes come with no event between them (log
entry 8). -/
def Obligations.ReadAckFrameRecoversThePayload : Prop :=
  ∀ (s : State) (l : Half) (d : List Byte), s.phase = .seeking → s.reqOp = some .read → d.length = l.toNat →
    let body := [s.cfg.pOpAck, l.extractLsb' 0 8, l.extractLsb' 8 8] ++ d
    let F := [s.cfg.pStart] ++ body ++ (if s.cfg.checkLen = 1 then [Config.checksum body] else []) ++ [s.cfg.pEnd]
    exec (.rspAckRead l d) s = .next { s with
      rxSeen := true, buf := F, count := 5 + d.length + s.cfg.checkLen, expected := 5 + d.length + s.cfg.checkLen,
      rxKind := some .ack, phase := .done, outcome := some (.ack d), emitted := s.emitted ++ [.close] }

/-- R164 to R166: the short responses, delivered whole to an open exchange (log entry 8). -/
def Obligations.ShortFramesGiveTheirOutcomes : Prop :=
  ∀ s : State, s.phase = .seeking →
    let finished (b : Byte) (k : RxKind) (x : ExchangeOutcome) : State := { s with
      rxSeen := true,
      buf := [s.cfg.pStart, b] ++ (if s.cfg.checkLen = 1 then [Config.checksum [b]] else []) ++ [s.cfg.pEnd],
      count := 3 + s.cfg.checkLen, expected := 3 + s.cfg.checkLen, rxKind := some k, phase := .done,
      outcome := some x, emitted := s.emitted ++ [.close] }
    (s.reqOp = some .write → exec .rspAckWrite s = .next (finished s.cfg.pOpAck .ack (.ack []))) ∧
    exec .rspNack s = .next (finished s.cfg.pOpNack .nack .rejected) ∧
    exec .rspReady s = .next (finished s.cfg.pOpReady .ready .ready)

/-- R89, R151: START and any byte that is no response opcode, delivered to an open exchange; START, END and the request
opcodes are such bytes. The two bytes come with no event between them (log entry 8). -/
def Obligations.BadOpcodeFrameIsMalformed : Prop :=
  ∀ (s : State) (x : Byte), s.phase = .seeking →
    (x ≠ s.cfg.pOpAck → x ≠ s.cfg.pOpNack → x ≠ s.cfg.pOpReady →
      exec (.rspBadOpcode x) s = .next { s with
        rxSeen := true, buf := [s.cfg.pStart, x], count := 2, phase := .done,
        outcome := some (.malformed .badOpcode), emitted := s.emitted ++ [.close] }) ∧
    (x = s.cfg.pStart ∨ x = s.cfg.pEnd ∨ x = s.cfg.pOpRead ∨ x = s.cfg.pOpWrite →
      x ≠ s.cfg.pOpAck ∧ x ≠ s.cfg.pOpNack ∧ x ≠ s.cfg.pOpReady)

/-- R147: noise before START changes nothing but RX_SEEN, so a stream that starts mid-frame is scanned forward to the first
START, as the spec derives from R145 and R146. -/
def Obligations.NoiseIsScannedPast : Prop :=
  ∀ (s : State) (noise F : List Byte), s.phase = .seeking → s.rxSeen = true → (∀ b ∈ noise, b ≠ s.cfg.pStart) →
    s.deliver (noise ++ F) = s.deliver F

/-- R63, R143: a response frame run as one row is its bytes run as one RX event per step (log entry 8). -/
def Obligations.FrameRowsAreTheirBytes : Prop :=
  ∀ (s : State) (F : Frame) (i : Instr) (pending : List Input), s.phase = .seeking →
    decodeResponse s.cfg s.reqOp F = .ok i →
    step { s with inputs := delivery F :: pending } =
      Host.Core.run Sys2Proof.core F.length { s with inputs := F.map (fun b => .event (.rx b)) ++ pending }

/-! ### The register page -/

/-- R200, R202 to R210: a buffer below 256 bytes gives TOO_SHORT and no field; one of 256 bytes or more gives a page, each
field read at its offset, little-endian and unsigned; no register changes. The firmware version's "(minor, major) order is
taken from the register-map version" (R204, decision D18; log entry 24). -/
def Obligations.PageFieldsAreRead : Prop :=
  (∀ (s : State) (B : List Byte), B.length < 256 →
    exec (.decodePage B) s = .next { s with emitted := s.emitted ++ [.page .tooShort] }) ∧
  ∀ (s : State) (B : List Byte), 256 ≤ B.length → ∃ p : RegisterPage,
    exec (.decodePage B) s = .next { s with emitted := s.emitted ++ [.page (.page p)] } ∧
    B[s.cfg.offMapVer]? = some p.mapVerMinor ∧ B[s.cfg.offMapVer + 1]? = some p.mapVerMajor ∧
    B[s.cfg.offFwVer]? = some p.fwVerMinor ∧ B[s.cfg.offFwVer + 1]? = some p.fwVerMajor ∧
    B[s.cfg.offControl]? = some p.control ∧ B[s.cfg.offStatus]? = some p.status ∧
    memRead B s.cfg.offConc 4 = some p.concentration.toNat ∧
    memRead B s.cfg.offTemp 4 = some p.temperature.toNat ∧
    memRead B s.cfg.offHum 4 = some p.humidity.toNat ∧
    memRead B s.cfg.offId 4 = some p.deviceId.toNat

/-- R64, R203: the 16-bit little-endian view of a version pair is major << 8 | minor, as the spec derives from R62. -/
def Obligations.VersionViewsAgree : Prop :=
  ∀ (c : Config) (B : List Byte), 256 ≤ B.length → ∀ o ∈ [c.offMapVer, c.offFwVer], ∃ minor major,
    B[o]? = some minor ∧ B[o + 1]? = some major ∧ memRead B o 2 = some (versionWord minor major).toNat

/-- R213, which the spec derives from R200: DECODE_PAGE depends only on the bytes at the field offsets: not on the reserved byte, not on bytes at 256 and
above. -/
def Obligations.PageDependsOnFieldBytesOnly : Prop :=
  ∀ (c : Config) (B B' : List Byte), 256 ≤ B.length → 256 ≤ B'.length →
    (∀ r ∈ [(c.offMapVer, 2), (c.offFwVer, 2), (c.offControl, 1), (c.offStatus, 1), (c.offConc, 4), (c.offTemp, 4),
        (c.offHum, 4), (c.offId, 4)], ∀ k < r.2, B[r.1 + k]? = B'[r.1 + k]?) →
    decodePage c B = decodePage c B' ∧ decodePage c B ≠ none

/-- R211, R212: le32 of a stored float field gives back exactly the four bytes read, for every pattern. -/
def Obligations.FloatFieldsKeepTheirBytes : Prop :=
  ∀ (c : Config) (B : List Byte) (p : RegisterPage), 256 ≤ B.length → decodePage c B = some (.page p) →
    le32 p.concentration = slice B c.offConc (c.offConc + 4) ∧
    le32 p.temperature = slice B c.offTemp (c.offTemp + 4) ∧
    le32 p.humidity = slice B c.offHum (c.offHum + 4) ∧
    le32 p.deviceId = slice B c.offId (c.offId + 4)

/-- The binary32 reading of R211, which the spec marks as general knowledge (log entry 19): the value of a pattern. -/
def Obligations.FloatPatternValues : Prop :=
  ∀ w : Word,
    let sgn : ℚ := (-1) ^ (w.toNat / 2 ^ 31)
    let e : Nat := w.toNat / 2 ^ 23 % 256
    let f : Nat := w.toNat % 2 ^ 23
    (e = 255 → f32Scaled w = none) ∧
    (0 < e → e < 255 → ∃ m k : Int, f32Scaled w = some (m, k) ∧
      (m : ℚ) * 2 ^ k = sgn * 2 ^ ((e : Int) - 127) * (1 + (f : ℚ) / 2 ^ 23)) ∧
    (e = 0 → ∃ m k : Int, f32Scaled w = some (m, k) ∧ (m : ℚ) * 2 ^ k = sgn * 2 ^ (-126 : Int) * ((f : ℚ) / 2 ^ 23))

/-- R214: the chain from an outcome to a page. After an ACK it is DECODE_PAGE of the payload, which is a page from 256 bytes
on and TOO_SHORT below; any other outcome is itself the result. -/
def Obligations.PageOnlyAfterAnAck : Prop :=
  ∀ (c : Config) (x : ExchangeOutcome),
    (∀ P, x = .ack P →
      readResult c x = (decodePage c P).map .decoded ∧
      (256 ≤ P.length → ∃ p, decodePage c P = some (.page p)) ∧
      (P.length < 256 → decodePage c P = some .tooShort)) ∧
    ((∀ P, x ≠ .ack P) → readResult c x = some (.undecoded x))

/-! ### Outcomes and whole-machine rules -/

/-- R230, R231, R234, R40: the codes, which the spec assigns and "the source has no codes" (decision D15), and the STATUS
port. -/
def Obligations.StatusCodes : Prop :=
  outcomeCode none = 0 ∧ (∀ P, outcomeCode (some (.ack P)) = 1) ∧ outcomeCode (some .ready) = 2 ∧
  outcomeCode (some .rejected) = 3 ∧ (∀ r, outcomeCode (some (.malformed r)) = 4) ∧ outcomeCode (some .timeout) = 5 ∧
  outcomeCode (some .transportError) = 6 ∧
  reasonCode .badOpcode = 1 ∧ reasonCode .badEnd = 2 ∧ reasonCode .overLength = 3 ∧ reasonCode .badCheck = 4 ∧
  pageCode .tooShort = some 7 ∧
  ∀ s : State,
    (s.status.done = true ↔ s.phase = .done) ∧ s.status.outcome = s.outcome ∧ s.status.code = outcomeCode s.outcome ∧
    (s.status.busy = true ↔
      s.phase = .seeking ∨ s.phase = .haveOpcode ∨ s.phase = .sizing ∨ s.phase = .collecting)

/-- R232, R240: CLOSE is emitted exactly on entry to DONE, once, and an instruction emits at most one thing. -/
def Obligations.CloseExactlyOnEntryToDone : Prop :=
  ∀ (i : Instr) (s t : State), exec i s = .next t →
    ∃ new, t.emitted = s.emitted ++ new ∧ new.length ≤ 1 ∧
      (Emit.close ∈ new ↔ s.phase ≠ .done ∧ t.phase = .done)

/-- R90, R140: a frame goes to TX only when an exchange opens, and then exactly one does, but for LISTEN. -/
def Obligations.TransmitOnlyWhenOpening : Prop :=
  ∀ (i : Instr) (s t : State), exec i s = .next t →
    ((∃ F, t.emitted = s.emitted ++ [.tx F]) ↔
      opensExchange i = true ∧ (∀ op m, i ≠ .listen op m) ∧ s.busy = false ∧ t.phase = .seeking)

/-- R235, R238, R239: in DONE, nothing but BEGIN, LISTEN, their pseudo-commands and RESET changes the outcome, the phase or
any other exchange register, as the spec derives in R235. -/
def Obligations.OutcomeIsFinal : Prop :=
  ∀ (i : Instr) (s t : State), s.phase = .done → exec i s = .next t → opensExchange i = false → i ≠ .reset →
    t.exchangeRegs = s.exchangeRegs

/-- R242: RESET is the only way from an active phase to OFF, and an exchange that is active stays active or reaches DONE
under every other instruction. -/
def Obligations.OnlyResetAbandonsAnExchange : Prop :=
  ∀ (i : Instr) (s t : State), s.busy = true → exec i s = .next t → i ≠ .reset → t.busy = true ∨ t.phase = .done

/-- R242, R38: ELAPSED is cleared by opening an exchange and by RESET, counted by a TICK in an active phase, and changed by
nothing else, a refused opening command among it. -/
def Obligations.OnlyTicksCount : Prop :=
  ∀ (i : Instr) (s t : State), exec i s = .next t →
    (i = .reset → t.elapsed = 0) ∧
    (opensExchange i = true → s.busy = false → t.phase = .seeking → t.elapsed = 0) ∧
    (opensExchange i = true → s.busy = true ∨ t.phase ≠ .seeking → t.elapsed = s.elapsed) ∧
    (eventOf i = some .tick → s.busy = true → t.elapsed = s.elapsed + 1) ∧
    (i ≠ .reset → opensExchange i = false → ¬ (eventOf i = some .tick ∧ s.busy = true) → t.elapsed = s.elapsed)

/-- R44: no instruction changes the configuration. -/
def Obligations.ConfigurationIsFixed : Prop :=
  ∀ (i : Instr) (s t : State), exec i s = .next t → t.cfg = s.cfg

/-- R41: REFUSED is sticky; only a command that R114 or R142 refuses sets it. -/
def Obligations.RefusedIsSticky : Prop :=
  ∀ (i : Instr) (s t : State), exec i s = .next t →
    (s.refused = true → t.refused = true) ∧
    (s.refused = false → t.refused = true →
      t = { s with refused := true } ∧
      (opensExchange i = true ∨ (∃ op A d L, i = .build op A d L) ∨ ∃ a l d, i = .reqWrite a l d))

/-! ### The invariant -/

/-- The invariant holds at reset, whose values are the spec's own choice (R45, decision D16). -/
def Obligations.InvariantHoldsAtReset : Prop := State.reset.Inv

/-- R46, which the spec derives: every step from a state of the invariant gives a state of the invariant. -/
def Obligations.StepKeepsTheInvariant : Prop :=
  ∀ s t : State, s.Inv → step s = .next t → t.Inv

/-- From a state of the invariant no step faults (log entry 11): it gives a next state, unless bytes presented as a request frame are no
frame of the table. -/
def Obligations.NoFaultFromTheInvariant : Prop :=
  ∀ s : State, s.Inv → (∃ t, step s = .next t) ∨
    ∃ F pending r, s.inputs = .request F :: pending ∧ decodeRequest s.cfg F = .error r ∧
      step s = .refused (.undecodable r)

/-- R34, R36, R38, R14: in states of the invariant the counts fit the widths the spec gives their registers. -/
def Obligations.CountsFitTheirWidths : Prop :=
  ∀ s : State, s.Inv → s.buf.length = s.count ∧ s.count ≤ 65541 ∧ s.count < 2 ^ 17 ∧ s.expected < 2 ^ 17 ∧
    s.elapsed ≤ s.cfg.budgetTicks

/-! ### Runs -/

/-- R175, R272: from a state of the invariant with an exchange active, any events run through; as the spec derives, once TICKs have used up the
budget the exchange is in DONE, and TIMEOUT comes no sooner, the ping case of R171 excepted. -/
def Obligations.ExchangeEndsWithinTheBudget : Prop :=
  ∀ (s : State) (es : List Event), s.Inv → s.busy = true → s.inputs = es.map .event →
    ∃ t, Host.Core.run Sys2Proof.core es.length s = .next t ∧
      (s.cfg.budgetTicks ≤ s.elapsed + ticks es → t.phase = .done) ∧
      (t.outcome = some .timeout → s.mode = some .ping ∨ s.cfg.budgetTicks ≤ s.elapsed + ticks es)

/-- R172, R175: after BEGIN, LISTEN or a pseudo-command opens an exchange (u is the state that it leaves), an exchange that
receives nothing is in SEEKING with ELAPSED counting until the BUDGET_TICKS-th TICK, and has the outcome TIMEOUT from then
on, as the spec derives. In PING mode an empty poll ends it sooner (R171), so there only TICKs are pending. -/
def Obligations.SilentExchangeTimesOutExactly : Prop :=
  ∀ (s u : State) (opening : Input) (i : Instr) (es : List Event),
    s.busy = false → s.inputs = opening :: es.map .event → decode s.cfg s.context opening = .ok (i, []) →
    opensExchange i = true → exec i { s with inputs := es.map .event } = .next u → u.phase = .seeking →
    (∀ e ∈ es, e = .tick ∨ (e = .rxNone ∧ u.mode = some .normal)) →
    ∃ t, Host.Core.run Sys2Proof.core (es.length + 1) s = .next t ∧
      (ticks es < s.cfg.budgetTicks →
        t.phase = .seeking ∧ t.outcome = none ∧ t.elapsed = ticks es ∧ t.emitted = u.emitted) ∧
      (s.cfg.budgetTicks ≤ ticks es →
        t.phase = .done ∧ t.outcome = some .timeout ∧ t.elapsed = s.cfg.budgetTicks ∧
        t.emitted = u.emitted ++ [.close])

/-- R176: after BEGIN or LISTEN opens an exchange, the exchange registers and the outputs are functions of that command and
of the inputs after it: two states that differ in everything earlier run alike, as the spec derives. -/
def Obligations.NoLeakBetweenExchanges : Prop :=
  ∀ (s₁ s₂ t₁ : State) (i : Instr) (n : Nat) (u₁ : State), s₁.cfg = s₂.cfg → s₁.inputs = s₂.inputs →
    s₁.busy = false → s₂.busy = false → opensExchange i = true →
    exec i s₁ = .next t₁ → t₁.phase = .seeking → Host.Core.run Sys2Proof.core n t₁ = .next u₁ →
    ∃ t₂ u₂ out, exec i s₂ = .next t₂ ∧ Host.Core.run Sys2Proof.core n t₂ = .next u₂ ∧
      u₁.exchangeRegs = u₂.exchangeRegs ∧ u₁.emitted = s₁.emitted ++ out ∧ u₂.emitted = s₂.emitted ++ out
end

