-- ==== Sys2Proof/Laws/Config.lean ====
section
/-!
SUPPORT. What the checks of R263 give of every configuration.
-/

namespace Sys2Proof.Config

/-- WF1 (R8). -/
theorem marks_nodup (c : Config) :
    [c.pStart, c.pEnd, c.pOpRead, c.pOpWrite, c.pOpAck, c.pOpNack, c.pOpReady].Nodup := by
  have h := c.wf
  simp only [Params.wellFormed, Params.wf1, Bool.and_eq_true, decide_eq_true_eq] at h
  exact h.1.1.1

/-- CHECK_LEN is 0 or 1 (R9). -/
theorem checkLen_le (c : Config) : c.checkLen ≤ 1 := by
  have h := c.wf
  simp only [Params.wellFormed, Bool.and_eq_true, decide_eq_true_eq] at h
  exact h.1.2

/-- CHECK_LEN is 0 or 1, as cases. -/
theorem checkLen_cases (c : Config) : c.checkLen = 0 ∨ c.checkLen = 1 := by
  have := c.checkLen_le
  omega

/-- BUDGET_TICKS ≥ 1 (R12). -/
theorem budget_pos (c : Config) : 1 ≤ c.budgetTicks := by
  have h := c.wf
  simp only [Params.wellFormed, Bool.and_eq_true, decide_eq_true_eq] at h
  exact h.2

/-- WF2 (R201). -/
theorem wf2_holds (c : Config) : c.wf2 = true := by
  have h := c.wf
  simp only [Params.wellFormed, Bool.and_eq_true] at h
  exact h.1.1.2

/-- Every page field lies inside the page (R201 a). -/
theorem fields_in_page (c : Config) :
    c.offMapVer + 2 ≤ 256 ∧ c.offFwVer + 2 ≤ 256 ∧ c.offControl + 3 ≤ 256 ∧ c.offConc + 4 ≤ 256 ∧
    c.offTemp + 4 ≤ 256 ∧ c.offHum + 4 ≤ 256 ∧ c.offId + 4 ≤ 256 := by
  have h := c.wf2_holds
  simp [Params.wf2, Params.inPage, pageSize] at h
  omega

/-- The status byte follows the reserved byte (R201 b). -/
theorem status_offset (c : Config) : c.offStatus = c.offControl + 2 := by
  have h := c.wf2_holds
  simp only [Params.wf2, Params.statusPlaced, Bool.and_eq_true, beq_iff_eq] at h
  exact h.1.2

theorem nack_ne_ack (c : Config) : c.pOpNack ≠ c.pOpAck := by
  have h := c.marks_nodup; simp at h; tauto

theorem ready_ne_ack (c : Config) : c.pOpReady ≠ c.pOpAck := by
  have h := c.marks_nodup; simp at h; tauto

theorem ready_ne_nack (c : Config) : c.pOpReady ≠ c.pOpNack := by
  have h := c.marks_nodup; simp at h; tauto

theorem write_ne_read (c : Config) : c.pOpWrite ≠ c.pOpRead := by
  have h := c.marks_nodup; simp at h; tauto

/-- No sentinel and no request opcode is a response opcode (R89). -/
theorem not_response (c : Config) :
    c.pStart ∉ c.responseOpcodes ∧ c.pEnd ∉ c.responseOpcodes ∧ c.pOpRead ∉ c.responseOpcodes ∧
    c.pOpWrite ∉ c.responseOpcodes := by
  have h := c.marks_nodup
  simp at h
  simp [responseOpcodes]
  tauto

/-- The frame lengths exceed the two bytes START and OPCODE. -/
theorem lengths (c : Config) : 3 ≤ c.shortLen ∧ c.shortLen ≤ 4 ∧ 5 ≤ c.overhead ∧ c.overhead ≤ 6 ∧
    c.maxFrame ≤ 65541 ∧ c.shortLen ≤ c.maxFrame ∧ c.overhead ≤ c.maxFrame := by
  have := c.checkLen_le
  simp only [shortLen, overhead, maxFrame, maxField]
  omega

/-- Parameters that fail a check make no configuration (R263). -/
theorem ofParams_none {p : Params} : ofParams p = none ↔ p.wellFormed = false := by
  unfold ofParams
  split <;> simp_all

end Sys2Proof.Config
end

