-- ==== Sys2Proof/Laws/Operands.lean ====
section
/-!
SUPPORT. The laws of byte sequences: little-endian values and bytes are inverse, and a read sees the bytes it names.
-/

namespace Sys2Proof

@[simp] theorem leBytes_length (n v : Nat) : (leBytes n v).length = n := by
  induction n generalizing v with
  | zero => rfl
  | succ n ih => simp [leBytes, ih]

/-- A value of n bytes is below 256^n. -/
theorem leNat_lt (bs : List Byte) : leNat bs < 256 ^ bs.length := by
  induction bs with
  | nil => simp [leNat]
  | cons b bs ih =>
    have hb := b.isLt
    simp only [leNat, List.length_cons, pow_succ]
    omega

/-- Reading the bytes of a value gives the value, modulo the width. -/
theorem leNat_leBytes (n v : Nat) : leNat (leBytes n v) = v % 256 ^ n := by
  induction n generalizing v with
  | zero => simp [leBytes, leNat, Nat.mod_one]
  | succ n ih =>
    rw [leBytes, leNat, ih, pow_succ, Nat.mul_comm (256 ^ n) 256, Nat.mod_mul]
    simp

/-- The bytes of a value read from bytes are those bytes. -/
theorem leBytes_leNat (bs : List Byte) : leBytes bs.length (leNat bs) = bs := by
  induction bs with
  | nil => rfl
  | cons b bs ih =>
    have hb := b.isLt
    have h1 : (b.toNat + 256 * leNat bs) / 256 = leNat bs := by omega
    have h2 : BitVec.ofNat 8 (b.toNat + 256 * leNat bs) = b := by
      apply BitVec.eq_of_toNat_eq
      simp only [BitVec.toNat_ofNat]
      omega
    simp [leBytes, leNat, h1, h2, ih]

@[simp] theorem slice_length (B : List Byte) (i j : Nat) : (slice B i j).length = min (j - i) (B.length - i) := by
  simp [slice]

/-- An element of a subsequence. -/
theorem slice_getElem? (B : List Byte) (i j k : Nat) :
    (slice B i j)[k]? = if k < j - i then B[i + k]? else none := by
  simp [slice, List.getElem?_take]

/-- A read inside the sequence answers. -/
theorem memRead_eq {B : List Byte} {o n : Nat} (h : o + n ≤ B.length) :
    memRead B o n = some (leNat (slice B o (o + n))) := by simp [memRead, h]

/-- A read that answers lies inside the sequence, and its value is below 256^n. -/
theorem memRead_some {B : List Byte} {o n v : Nat} (h : memRead B o n = some v) :
    o + n ≤ B.length ∧ v = leNat (slice B o (o + n)) ∧ v < 256 ^ n := by
  unfold memRead at h
  split at h
  · rename_i hb
    have := leNat_lt (slice B o (o + n))
    simp only [slice_length] at this
    rw [show min (o + n - o) (B.length - o) = n by omega] at this
    simp only [Option.some.injEq] at h
    subst h
    exact ⟨hb, rfl, this⟩
  · simp at h

/-- A two-byte read, byte by byte (R92). -/
theorem memRead_two {B : List Byte} {o : Nat} {lo hi : Byte} (h0 : B[o]? = some lo) (h1 : B[o + 1]? = some hi) :
    memRead B o 2 = some (lo.toNat + 256 * hi.toNat) := by
  have hlen : o + 2 ≤ B.length := by
    have := (List.getElem?_eq_some_iff.mp h1).1
    omega
  rw [memRead_eq hlen]
  have : slice B o (o + 2) = [lo, hi] := by
    apply List.ext_getElem?
    intro k
    rw [slice_getElem?]
    match k with
    | 0 => simp [h0]
    | 1 => simp [h1]
    | k + 2 => simp
  simp [this, leNat]

/-- A read depends on the bytes it names only. -/
theorem memRead_congr {B B' : List Byte} {o n : Nat} (hB : o + n ≤ B.length) (hB' : o + n ≤ B'.length)
    (h : ∀ k < n, B[o + k]? = B'[o + k]?) : memRead B o n = memRead B' o n := by
  rw [memRead_eq hB, memRead_eq hB']
  congr 2
  apply List.ext_getElem?
  intro k
  rw [slice_getElem?, slice_getElem?]
  split
  · exact h k (by omega)
  · rfl

/-- Appending a byte leaves a read inside the sequence as it was. -/
theorem memRead_append {B C : List Byte} {o n : Nat} (hB : o + n ≤ B.length) :
    memRead (B ++ C) o n = memRead B o n := by
  apply memRead_congr
  · simp; omega
  · exact hB
  · intro k hk
    rw [List.getElem?_append_left (by omega)]

@[simp] theorem le16_length (v : Half) : (le16 v).length = 2 := rfl

/-- le16 and the little-endian value are inverse. -/
theorem leNat_le16 (v : Half) : leNat (le16 v) = v.toNat := by
  have := v.isLt
  simp only [le16, leNat, BitVec.extractLsb'_toNat, Nat.shiftRight_eq_div_pow]
  omega

/-- le16 of a value assembled from two bytes is those bytes (R92). -/
theorem le16_assembled (lo hi : Byte) : le16 (BitVec.ofNat 16 (lo.toNat + 256 * hi.toNat)) = [lo, hi] := by
  have h1 := lo.isLt
  have h2 := hi.isLt
  simp only [le16, List.cons.injEq, and_true]
  constructor <;> apply BitVec.eq_of_toNat_eq <;>
    simp only [BitVec.extractLsb'_toNat, BitVec.toNat_ofNat, Nat.shiftRight_eq_div_pow] <;> omega

/-- le32 and the little-endian value are inverse. -/
theorem leNat_le32 (w : Word) : leNat (le32 w) = w.toNat := by
  have := w.isLt
  simp only [le32, leNat, BitVec.extractLsb'_toNat, Nat.shiftRight_eq_div_pow]
  omega

/-- le32 gives back the four bytes a pattern was read from (R212). -/
theorem le32_leNat {bs : List Byte} (h : bs.length = 4) : le32 (BitVec.ofNat 32 (leNat bs)) = bs := by
  have hlt := leNat_lt bs
  rw [h] at hlt
  have hb : leNat (le32 (BitVec.ofNat 32 (leNat bs))) = leNat bs := by
    rw [leNat_le32, BitVec.toNat_ofNat]
    omega
  have h1 := leBytes_leNat (le32 (BitVec.ofNat 32 (leNat bs)))
  have h2 := leBytes_leNat bs
  rw [hb] at h1
  rw [h] at h2
  rw [← h1]
  exact h2

end Sys2Proof
end

