-- ==== Sys2Proof/Laws/Frames.lean ====
section
/-!
SUPPORT. The layout laws of frames: lengths (spec R10), and where START, the body, CHECK and END stand (R80 to R85).
-/

namespace Sys2Proof

@[simp] theorem checkField_length (c : Config) (body : List Byte) : (checkField c body).length = c.checkLen := by
  rcases c.checkLen_cases with h | h <;> simp [checkField, h]

@[simp] theorem envelope_length (c : Config) (body : List Byte) :
    (envelope c body).length = body.length + 2 + c.checkLen := by
  simp [envelope]; omega

@[simp] theorem envelope_start (c : Config) (body : List Byte) : (envelope c body)[0]? = some c.pStart := by
  simp [envelope]

/-- Byte k of the body stands at index k + 1. -/
theorem envelope_body (c : Config) (body : List Byte) {k : Nat} (h : k < body.length) :
    (envelope c body)[k + 1]? = body[k]? := by
  simp [envelope, List.getElem?_append_left, h]

/-- CHECK stands before END (R85). -/
theorem envelope_check (c : Config) (body : List Byte) (h : c.checkLen = 1) :
    (envelope c body)[body.length + 1]? = some (Config.checksum body) := by
  simp [envelope, checkField, h]

/-- END stands last (R80). -/
theorem envelope_end (c : Config) (body : List Byte) :
    (envelope c body)[body.length + 1 + c.checkLen]? = some c.pEnd := by
  rcases c.checkLen_cases with h | h <;> simp [envelope, checkField, h]

/-- The covered range is the body (R85). -/
theorem envelope_covered (c : Config) (body : List Byte) : slice (envelope c body) 1 (body.length + 1) = body := by
  simp [slice, envelope]

/-- A subsequence of the body, at its place in the frame. -/
theorem envelope_slice (c : Config) (body : List Byte) {i j : Nat} (h : j ≤ body.length) :
    slice (envelope c body) (i + 1) (j + 1) = slice body i j := by
  apply List.ext_getElem?
  intro k
  rw [slice_getElem?, slice_getElem?]
  by_cases hk : k < j - i
  · rw [if_pos (by omega), if_pos hk, show i + 1 + k = (i + k) + 1 by omega, envelope_body c body (by omega)]
  · rw [if_neg (by omega), if_neg hk]

theorem envelope_endOk (c : Config) (body : List Byte) : endOk c (envelope c body) = true := by
  have h := envelope_end c body
  simp only [endOk, envelope_length, beq_iff_eq]
  rw [show body.length + 2 + c.checkLen - 1 = body.length + 1 + c.checkLen by omega]
  exact h

theorem envelope_checkOk (c : Config) (body : List Byte) : checkOk c (envelope c body) = true := by
  rcases c.checkLen_cases with h | h
  · simp [checkOk, h]
  · have h1 := envelope_check c body h
    have h2 := envelope_covered c body
    simp only [checkOk, envelope_length, h, show body.length + 2 + 1 - 2 = body.length + 1 by omega, h1, h2]
    simp

@[simp] theorem requestFrame_length (c : Config) (op : Op) (a l : Half) (d : List Byte) :
    (requestFrame c op a l d).length = c.reqLen d.length := by
  simp [requestFrame, Config.reqLen]; omega

@[simp] theorem shortFrame_length (c : Config) (x : Byte) : (shortFrame c x).length = c.shortLen := by
  simp [shortFrame, Config.shortLen]

@[simp] theorem readAckFrame_length (c : Config) (l : Half) (d : List Byte) :
    (readAckFrame c l d).length = c.overhead + d.length := by
  simp [readAckFrame, Config.overhead]; omega

/-- ADDR and LEN of a built request (R116). -/
theorem requestFrame_fields (c : Config) (op : Op) (a l : Half) (d : List Byte) :
    (requestFrame c op a l d)[1]? = some (requestOpcode c op) ∧
    memRead (requestFrame c op a l d) 2 2 = some a.toNat ∧ memRead (requestFrame c op a l d) 4 2 = some l.toNat := by
  have ha := leNat_le16 a
  have hl := leNat_le16 l
  simp only [le16, leNat] at ha hl
  refine ⟨by simp [requestFrame, envelope], ?_, ?_⟩
  · rw [memRead_two (lo := a.extractLsb' 0 8) (hi := a.extractLsb' 8 8) (by simp [requestFrame, envelope, le16])
      (by simp [requestFrame, envelope, le16])]
    simpa using ha
  · rw [memRead_two (lo := l.extractLsb' 0 8) (hi := l.extractLsb' 8 8) (by simp [requestFrame, envelope, le16])
      (by simp [requestFrame, envelope, le16])]
    simpa using hl

/-- LEN of a read-ACK (R84). -/
theorem readAckFrame_fields (c : Config) (l : Half) (d : List Byte) :
    (readAckFrame c l d)[1]? = some c.pOpAck ∧ memRead (readAckFrame c l d) 2 2 = some l.toNat := by
  have hl := leNat_le16 l
  simp only [le16, leNat] at hl
  refine ⟨by simp [readAckFrame, envelope], ?_⟩
  rw [memRead_two (lo := l.extractLsb' 0 8) (hi := l.extractLsb' 8 8) (by simp [readAckFrame, envelope, le16])
    (by simp [readAckFrame, envelope, le16])]
  simpa using hl

/-- The payload of a request stands from byte 6 on (R82). -/
theorem requestFrame_payload (c : Config) (op : Op) (a l : Half) (d : List Byte) :
    slice (requestFrame c op a l d) 6 (6 + d.length) = d := by
  rw [requestFrame, show 6 + d.length = (5 + d.length) + 1 by omega, envelope_slice c _ (by simp; omega)]
  simp [slice, le16]

/-- The payload of a read-ACK stands from byte 4 on (R84). -/
theorem readAckFrame_payload (c : Config) (l : Half) (d : List Byte) :
    slice (readAckFrame c l d) 4 (4 + d.length) = d := by
  rw [readAckFrame, show 4 + d.length = (3 + d.length) + 1 by omega, envelope_slice c _ (by simp; omega)]
  simp [slice, le16]

/-- What an accepted BUILD gives (R110 to R115). -/
theorem buildFrame_some {c : Config} {op : Op} {a l : Nat} {d : List Byte} {F : Frame}
    (h : buildFrame c op a d l = some F) :
    buildRefused op a d l = false ∧ F = requestFrame c op (BitVec.ofNat 16 a) (BitVec.ofNat 16 l) d := by
  unfold buildFrame at h
  split at h
  · simp at h
  · rename_i hr
    exact ⟨by simpa using hr, by simpa using h.symm⟩

/-- When BUILD is not refused (R114). -/
theorem buildRefused_eq_false {op : Op} {a l : Nat} {d : List Byte} :
    buildRefused op a d l = false ↔
      (op = .read → d = []) ∧ d.length ≤ maxField ∧ a ≤ maxField ∧ l ≤ maxField := by
  cases op <;> simp [buildRefused, and_assoc]

end Sys2Proof
end

