-- ==== Sys2Proof/Laws/Decode.lean ====
section
/-!
SUPPORT. The decoder read back from the encoder: what decoding a laid-out frame gives, and which row an event is.
-/

namespace Sys2Proof

/-- Decoding a laid-out request. -/
theorem decodeRequest_requestFrame (c : Config) (op : Op) (a l : Half) (d : List Byte) (hd : payloadFits d = true)
    (hr : op = .read → d = []) :
    decodeRequest c (requestFrame c op a l d) =
      .ok (match op with | .read => .reqRead a l | .write => .reqWrite a l d) := by
  have hlen : ¬ (c.reqLen d.length < c.reqLen 0) := by simp [Config.reqLen]
  have hs : (requestFrame c op a l d)[0]? = some c.pStart := envelope_start c _
  have he : endOk c (requestFrame c op a l d) = true := envelope_endOk c _
  have hk : checkOk c (requestFrame c op a l d) = true := envelope_checkOk c _
  obtain ⟨ho, ha, hl⟩ := requestFrame_fields c op a l d
  have hp := requestFrame_payload c op a l d
  have hn : c.reqLen d.length - 1 - c.checkLen = 6 + d.length := by simp only [Config.reqLen]; omega
  have hw := c.write_ne_read
  cases op with
  | read =>
    obtain rfl := hr rfl
    simp only [List.length_nil] at hn hp hlen
    simp [decodeRequest, hs, he, hk, ho, ha, hl, hn, hp, requestOpcode]
  | write => simp [decodeRequest, hs, he, hk, ho, ha, hl, hlen, hn, hp, requestOpcode, hw, hd]

/-- A frame laid out by the envelope, of the right length, closes. -/
theorem closedBy_envelope (c : Config) (body : List Byte) {len : Nat} (i : Instr)
    (h : body.length + 2 + c.checkLen = len) : closedBy c (envelope c body) len i = .ok i := by
  simp [closedBy, h, envelope_endOk, envelope_checkOk]

/-- Decoding a laid-out read-ACK, where a Read was requested. -/
theorem decodeResponse_readAckFrame (c : Config) (l : Half) (d : List Byte) (hd : lengthAgrees l d = true) :
    decodeResponse c (some .read) (readAckFrame c l d) = .ok (.rspAckRead l d) := by
  have hs : (readAckFrame c l d)[0]? = some c.pStart := envelope_start c _
  obtain ⟨ho, hl⟩ := readAckFrame_fields c l d
  have hn : d.length = l.toNat := by simpa [lengthAgrees] using hd
  have hp := readAckFrame_payload c l d
  have hc := closedBy_envelope c ([c.pOpAck] ++ le16 l ++ d) (len := c.overhead + l.toNat) (.rspAckRead l d)
    (by simp [Config.overhead, hn]; omega)
  rw [hn] at hp
  simp [decodeResponse, hs, ho, hl, hp]
  exact hc

/-- Decoding a laid-out short response. -/
theorem decodeResponse_shortFrame (c : Config) :
    decodeResponse c (some .write) (shortFrame c c.pOpAck) = .ok .rspAckWrite ∧
    (∀ op, decodeResponse c op (shortFrame c c.pOpNack) = .ok .rspNack) ∧
    (∀ op, decodeResponse c op (shortFrame c c.pOpReady) = .ok .rspReady) := by
  have hs : ∀ x, (shortFrame c x)[0]? = some c.pStart := fun x => envelope_start c _
  have ho : ∀ x, (shortFrame c x)[1]? = some x := fun x => by simp [shortFrame, envelope]
  have hc : ∀ x i, closedBy c (shortFrame c x) c.shortLen i = .ok i := fun x i =>
    closedBy_envelope c [x] i (by simp [Config.shortLen])
  have h1 := c.nack_ne_ack
  have h2 := c.ready_ne_ack
  have h3 := c.ready_ne_nack
  refine ⟨?_, fun op => ?_, fun op => ?_⟩
  · simp [decodeResponse, hs, ho, hc]
  · simp [decodeResponse, hs, ho, hc, h1]
  · simp [decodeResponse, hs, ho, hc, h2, h3]

/-- Decoding START and an illegal opcode. -/
theorem decodeResponse_badOpcode (c : Config) (op : Option Op) (x : Byte) (h : isBadOpcode c x = true) :
    decodeResponse c op [c.pStart, x] = .ok (.rspBadOpcode x) := by
  simp [isBadOpcode, Config.responseOpcodes] at h
  simp [decodeResponse, h.1, h.2.1, h.2.2]

/-- A delivery of a frame is the frame's row while the block seeks a START. -/
theorem decode_delivery {c : Config} {x : Context} {F : Frame} {i : Instr} (hx : x.phase = .seeking)
    (h : decodeResponse c x.reqOp F = .ok i) : decode c x (delivery F) = .ok (i, []) := by
  cases F with
  | nil => simp [decodeResponse] at h
  | cons b bs => simp [delivery, decode, hx, h]

/-- The row of an event is a row of that event in every context: OFF and DONE first (R144). -/
theorem eventRow_idle {x : Context} (e : Event) (h : x.phase.idle = true) : eventRow x e = .eventIdle e := by
  simp [eventRow, h]

end Sys2Proof
end

