-- ==== Sys2Proof/Laws/State.lean ====
section
/-!
SUPPORT. What each update of the state does to each field: one lemma per field and update.
-/

namespace Sys2Proof.Machine

/-! ### emit -/

@[simp] theorem State.emit_cfg (s : State) (e : Emit) : (s.emit e).cfg = s.cfg := rfl
@[simp] theorem State.emit_phase (s : State) (e : Emit) : (s.emit e).phase = s.phase := rfl
@[simp] theorem State.emit_reqOp (s : State) (e : Emit) : (s.emit e).reqOp = s.reqOp := rfl
@[simp] theorem State.emit_rxKind (s : State) (e : Emit) : (s.emit e).rxKind = s.rxKind := rfl
@[simp] theorem State.emit_mode (s : State) (e : Emit) : (s.emit e).mode = s.mode := rfl
@[simp] theorem State.emit_buf (s : State) (e : Emit) : (s.emit e).buf = s.buf := rfl
@[simp] theorem State.emit_count (s : State) (e : Emit) : (s.emit e).count = s.count := rfl
@[simp] theorem State.emit_expected (s : State) (e : Emit) : (s.emit e).expected = s.expected := rfl
@[simp] theorem State.emit_rxSeen (s : State) (e : Emit) : (s.emit e).rxSeen = s.rxSeen := rfl
@[simp] theorem State.emit_elapsed (s : State) (e : Emit) : (s.emit e).elapsed = s.elapsed := rfl
@[simp] theorem State.emit_outcome (s : State) (e : Emit) : (s.emit e).outcome = s.outcome := rfl
@[simp] theorem State.emit_refused (s : State) (e : Emit) : (s.emit e).refused = s.refused := rfl
@[simp] theorem State.emit_inputs (s : State) (e : Emit) : (s.emit e).inputs = s.inputs := rfl
@[simp] theorem State.emit_emitted (s : State) (e : Emit) : (s.emit e).emitted = s.emitted ++ [e] := rfl

/-! ### refuse -/

@[simp] theorem State.refuse_cfg (s : State) : (s.refuse).cfg = s.cfg := rfl
@[simp] theorem State.refuse_phase (s : State) : (s.refuse).phase = s.phase := rfl
@[simp] theorem State.refuse_reqOp (s : State) : (s.refuse).reqOp = s.reqOp := rfl
@[simp] theorem State.refuse_rxKind (s : State) : (s.refuse).rxKind = s.rxKind := rfl
@[simp] theorem State.refuse_mode (s : State) : (s.refuse).mode = s.mode := rfl
@[simp] theorem State.refuse_buf (s : State) : (s.refuse).buf = s.buf := rfl
@[simp] theorem State.refuse_count (s : State) : (s.refuse).count = s.count := rfl
@[simp] theorem State.refuse_expected (s : State) : (s.refuse).expected = s.expected := rfl
@[simp] theorem State.refuse_rxSeen (s : State) : (s.refuse).rxSeen = s.rxSeen := rfl
@[simp] theorem State.refuse_elapsed (s : State) : (s.refuse).elapsed = s.elapsed := rfl
@[simp] theorem State.refuse_outcome (s : State) : (s.refuse).outcome = s.outcome := rfl
@[simp] theorem State.refuse_refused (s : State) : (s.refuse).refused = true := rfl
@[simp] theorem State.refuse_inputs (s : State) : (s.refuse).inputs = s.inputs := rfl
@[simp] theorem State.refuse_emitted (s : State) : (s.refuse).emitted = s.emitted := rfl

/-! ### raise -/

@[simp] theorem State.raise_cfg (s : State) (x : ExchangeOutcome) : (s.raise x).cfg = s.cfg := rfl
@[simp] theorem State.raise_phase (s : State) (x : ExchangeOutcome) : (s.raise x).phase = .done := rfl
@[simp] theorem State.raise_reqOp (s : State) (x : ExchangeOutcome) : (s.raise x).reqOp = s.reqOp := rfl
@[simp] theorem State.raise_rxKind (s : State) (x : ExchangeOutcome) : (s.raise x).rxKind = s.rxKind := rfl
@[simp] theorem State.raise_mode (s : State) (x : ExchangeOutcome) : (s.raise x).mode = s.mode := rfl
@[simp] theorem State.raise_buf (s : State) (x : ExchangeOutcome) : (s.raise x).buf = s.buf := rfl
@[simp] theorem State.raise_count (s : State) (x : ExchangeOutcome) : (s.raise x).count = s.count := rfl
@[simp] theorem State.raise_expected (s : State) (x : ExchangeOutcome) : (s.raise x).expected = s.expected := rfl
@[simp] theorem State.raise_rxSeen (s : State) (x : ExchangeOutcome) : (s.raise x).rxSeen = s.rxSeen := rfl
@[simp] theorem State.raise_elapsed (s : State) (x : ExchangeOutcome) : (s.raise x).elapsed = s.elapsed := rfl
@[simp] theorem State.raise_outcome (s : State) (x : ExchangeOutcome) : (s.raise x).outcome = some x := rfl
@[simp] theorem State.raise_refused (s : State) (x : ExchangeOutcome) : (s.raise x).refused = s.refused := rfl
@[simp] theorem State.raise_inputs (s : State) (x : ExchangeOutcome) : (s.raise x).inputs = s.inputs := rfl
@[simp] theorem State.raise_emitted (s : State) (x : ExchangeOutcome) : (s.raise x).emitted = s.emitted ++ [.close] := rfl

/-! ### openExchange -/

@[simp] theorem State.openExchange_cfg (s : State) (op : Op) (m : Mode) : (s.openExchange op m).cfg = s.cfg := rfl
@[simp] theorem State.openExchange_phase (s : State) (op : Op) (m : Mode) : (s.openExchange op m).phase = .seeking := rfl
@[simp] theorem State.openExchange_reqOp (s : State) (op : Op) (m : Mode) : (s.openExchange op m).reqOp = some op := rfl
@[simp] theorem State.openExchange_rxKind (s : State) (op : Op) (m : Mode) : (s.openExchange op m).rxKind = none := rfl
@[simp] theorem State.openExchange_mode (s : State) (op : Op) (m : Mode) : (s.openExchange op m).mode = some m := rfl
@[simp] theorem State.openExchange_buf (s : State) (op : Op) (m : Mode) : (s.openExchange op m).buf = [] := rfl
@[simp] theorem State.openExchange_count (s : State) (op : Op) (m : Mode) : (s.openExchange op m).count = 0 := rfl
@[simp] theorem State.openExchange_expected (s : State) (op : Op) (m : Mode) : (s.openExchange op m).expected = 0 := rfl
@[simp] theorem State.openExchange_rxSeen (s : State) (op : Op) (m : Mode) : (s.openExchange op m).rxSeen = false := rfl
@[simp] theorem State.openExchange_elapsed (s : State) (op : Op) (m : Mode) : (s.openExchange op m).elapsed = 0 := rfl
@[simp] theorem State.openExchange_outcome (s : State) (op : Op) (m : Mode) : (s.openExchange op m).outcome = none := rfl
@[simp] theorem State.openExchange_refused (s : State) (op : Op) (m : Mode) : (s.openExchange op m).refused = s.refused := rfl
@[simp] theorem State.openExchange_inputs (s : State) (op : Op) (m : Mode) : (s.openExchange op m).inputs = s.inputs := rfl
@[simp] theorem State.openExchange_emitted (s : State) (op : Op) (m : Mode) : (s.openExchange op m).emitted = s.emitted := rfl

/-! ### resetRegisters -/

@[simp] theorem State.resetRegisters_cfg (s : State) : (s.resetRegisters).cfg = s.cfg := rfl
@[simp] theorem State.resetRegisters_phase (s : State) : (s.resetRegisters).phase = .off := rfl
@[simp] theorem State.resetRegisters_reqOp (s : State) : (s.resetRegisters).reqOp = none := rfl
@[simp] theorem State.resetRegisters_rxKind (s : State) : (s.resetRegisters).rxKind = none := rfl
@[simp] theorem State.resetRegisters_mode (s : State) : (s.resetRegisters).mode = none := rfl
@[simp] theorem State.resetRegisters_buf (s : State) : (s.resetRegisters).buf = [] := rfl
@[simp] theorem State.resetRegisters_count (s : State) : (s.resetRegisters).count = 0 := rfl
@[simp] theorem State.resetRegisters_expected (s : State) : (s.resetRegisters).expected = 0 := rfl
@[simp] theorem State.resetRegisters_rxSeen (s : State) : (s.resetRegisters).rxSeen = false := rfl
@[simp] theorem State.resetRegisters_elapsed (s : State) : (s.resetRegisters).elapsed = 0 := rfl
@[simp] theorem State.resetRegisters_outcome (s : State) : (s.resetRegisters).outcome = none := rfl
@[simp] theorem State.resetRegisters_refused (s : State) : (s.resetRegisters).refused = s.refused := rfl
@[simp] theorem State.resetRegisters_inputs (s : State) : (s.resetRegisters).inputs = s.inputs := rfl
@[simp] theorem State.resetRegisters_emitted (s : State) : (s.resetRegisters).emitted = s.emitted := rfl

/-! ### append -/

@[simp] theorem State.append_cfg (s : State) (b : Byte) : (s.append b).cfg = s.cfg := rfl
@[simp] theorem State.append_phase (s : State) (b : Byte) : (s.append b).phase = s.phase := rfl
@[simp] theorem State.append_reqOp (s : State) (b : Byte) : (s.append b).reqOp = s.reqOp := rfl
@[simp] theorem State.append_rxKind (s : State) (b : Byte) : (s.append b).rxKind = s.rxKind := rfl
@[simp] theorem State.append_mode (s : State) (b : Byte) : (s.append b).mode = s.mode := rfl
@[simp] theorem State.append_buf (s : State) (b : Byte) : (s.append b).buf = s.buf ++ [b] := rfl
@[simp] theorem State.append_count (s : State) (b : Byte) : (s.append b).count = s.count + 1 := rfl
@[simp] theorem State.append_expected (s : State) (b : Byte) : (s.append b).expected = s.expected := rfl
@[simp] theorem State.append_rxSeen (s : State) (b : Byte) : (s.append b).rxSeen = s.rxSeen := rfl
@[simp] theorem State.append_elapsed (s : State) (b : Byte) : (s.append b).elapsed = s.elapsed := rfl
@[simp] theorem State.append_outcome (s : State) (b : Byte) : (s.append b).outcome = s.outcome := rfl
@[simp] theorem State.append_refused (s : State) (b : Byte) : (s.append b).refused = s.refused := rfl
@[simp] theorem State.append_inputs (s : State) (b : Byte) : (s.append b).inputs = s.inputs := rfl
@[simp] theorem State.append_emitted (s : State) (b : Byte) : (s.append b).emitted = s.emitted := rfl

/-! ### take -/

@[simp] theorem State.take_cfg (s : State) (b : Byte) : (s.take b).cfg = s.cfg := rfl
@[simp] theorem State.take_phase (s : State) (b : Byte) : (s.take b).phase = s.phase := rfl
@[simp] theorem State.take_reqOp (s : State) (b : Byte) : (s.take b).reqOp = s.reqOp := rfl
@[simp] theorem State.take_rxKind (s : State) (b : Byte) : (s.take b).rxKind = s.rxKind := rfl
@[simp] theorem State.take_mode (s : State) (b : Byte) : (s.take b).mode = s.mode := rfl
@[simp] theorem State.take_buf (s : State) (b : Byte) : (s.take b).buf = s.buf ++ [b] := rfl
@[simp] theorem State.take_count (s : State) (b : Byte) : (s.take b).count = s.count + 1 := rfl
@[simp] theorem State.take_expected (s : State) (b : Byte) : (s.take b).expected = s.expected := rfl
@[simp] theorem State.take_rxSeen (s : State) (b : Byte) : (s.take b).rxSeen = true := rfl
@[simp] theorem State.take_elapsed (s : State) (b : Byte) : (s.take b).elapsed = s.elapsed := rfl
@[simp] theorem State.take_outcome (s : State) (b : Byte) : (s.take b).outcome = s.outcome := rfl
@[simp] theorem State.take_refused (s : State) (b : Byte) : (s.take b).refused = s.refused := rfl
@[simp] theorem State.take_inputs (s : State) (b : Byte) : (s.take b).inputs = s.inputs := rfl
@[simp] theorem State.take_emitted (s : State) (b : Byte) : (s.take b).emitted = s.emitted := rfl

/-! ### accept -/

@[simp] theorem State.accept_cfg (s : State) (k : RxKind) (len : Nat) (p : Phase) : (s.accept k len p).cfg = s.cfg := rfl
@[simp] theorem State.accept_phase (s : State) (k : RxKind) (len : Nat) (p : Phase) : (s.accept k len p).phase = p := rfl
@[simp] theorem State.accept_reqOp (s : State) (k : RxKind) (len : Nat) (p : Phase) : (s.accept k len p).reqOp = s.reqOp := rfl
@[simp] theorem State.accept_rxKind (s : State) (k : RxKind) (len : Nat) (p : Phase) : (s.accept k len p).rxKind = some k := rfl
@[simp] theorem State.accept_mode (s : State) (k : RxKind) (len : Nat) (p : Phase) : (s.accept k len p).mode = s.mode := rfl
@[simp] theorem State.accept_buf (s : State) (k : RxKind) (len : Nat) (p : Phase) : (s.accept k len p).buf = s.buf := rfl
@[simp] theorem State.accept_count (s : State) (k : RxKind) (len : Nat) (p : Phase) : (s.accept k len p).count = s.count := rfl
@[simp] theorem State.accept_expected (s : State) (k : RxKind) (len : Nat) (p : Phase) : (s.accept k len p).expected = len := rfl
@[simp] theorem State.accept_rxSeen (s : State) (k : RxKind) (len : Nat) (p : Phase) : (s.accept k len p).rxSeen = s.rxSeen := rfl
@[simp] theorem State.accept_elapsed (s : State) (k : RxKind) (len : Nat) (p : Phase) : (s.accept k len p).elapsed = s.elapsed := rfl
@[simp] theorem State.accept_outcome (s : State) (k : RxKind) (len : Nat) (p : Phase) : (s.accept k len p).outcome = s.outcome := rfl
@[simp] theorem State.accept_refused (s : State) (k : RxKind) (len : Nat) (p : Phase) : (s.accept k len p).refused = s.refused := rfl
@[simp] theorem State.accept_inputs (s : State) (k : RxKind) (len : Nat) (p : Phase) : (s.accept k len p).inputs = s.inputs := rfl
@[simp] theorem State.accept_emitted (s : State) (k : RxKind) (len : Nat) (p : Phase) : (s.accept k len p).emitted = s.emitted := rfl

/-! ### countTick -/

@[simp] theorem State.countTick_cfg (s : State) : (s.countTick).cfg = s.cfg := rfl
@[simp] theorem State.countTick_phase (s : State) : (s.countTick).phase = s.phase := rfl
@[simp] theorem State.countTick_reqOp (s : State) : (s.countTick).reqOp = s.reqOp := rfl
@[simp] theorem State.countTick_rxKind (s : State) : (s.countTick).rxKind = s.rxKind := rfl
@[simp] theorem State.countTick_mode (s : State) : (s.countTick).mode = s.mode := rfl
@[simp] theorem State.countTick_buf (s : State) : (s.countTick).buf = s.buf := rfl
@[simp] theorem State.countTick_count (s : State) : (s.countTick).count = s.count := rfl
@[simp] theorem State.countTick_expected (s : State) : (s.countTick).expected = s.expected := rfl
@[simp] theorem State.countTick_rxSeen (s : State) : (s.countTick).rxSeen = s.rxSeen := rfl
@[simp] theorem State.countTick_elapsed (s : State) : (s.countTick).elapsed = s.elapsed + 1 := rfl
@[simp] theorem State.countTick_outcome (s : State) : (s.countTick).outcome = s.outcome := rfl
@[simp] theorem State.countTick_refused (s : State) : (s.countTick).refused = s.refused := rfl
@[simp] theorem State.countTick_inputs (s : State) : (s.countTick).inputs = s.inputs := rfl
@[simp] theorem State.countTick_emitted (s : State) : (s.countTick).emitted = s.emitted := rfl

/-! ### The context a row is selected by -/

@[simp] theorem State.context_phase (s : State) : s.context.phase = s.phase := rfl
@[simp] theorem State.context_reqOp (s : State) : s.context.reqOp = s.reqOp := rfl
@[simp] theorem State.context_mode (s : State) : s.context.mode = s.mode := rfl
@[simp] theorem State.context_count (s : State) : s.context.count = s.count := rfl
@[simp] theorem State.context_expected (s : State) : s.context.expected = s.expected := rfl
@[simp] theorem State.context_rxSeen (s : State) : s.context.rxSeen = s.rxSeen := rfl

/-! ### Phases -/

/-- BUSY is the four active phases (R40). -/
theorem State.busy_iff (s : State) :
    s.busy = true ↔ s.phase = .seeking ∨ s.phase = .haveOpcode ∨ s.phase = .sizing ∨ s.phase = .collecting := by
  cases h : s.phase <;> simp [State.busy, Phase.idle, h]

/-- Not BUSY is OFF or DONE. -/
theorem State.not_busy_iff (s : State) : s.busy = false ↔ s.phase = .off ∨ s.phase = .done := by
  cases h : s.phase <;> simp [State.busy, Phase.idle, h]

/-- An active phase is BUSY. -/
theorem State.busy_of_seeking {s : State} (h : s.phase = .seeking) : s.busy = true := by simp [State.busy_iff, h]

/-- The pending inputs play no part in BUSY. -/
@[simp] theorem State.busy_with_inputs (s : State) (q : List Input) : ({ s with inputs := q } : State).busy = s.busy := rfl

end Sys2Proof.Machine
end

