-- ==== Sys2Proof/Laws/Ops.lean ====
section
/-!
SUPPORT. What each shared operation can do, said once: the inversion lemmas that statements about events, deliveries and
commands cite instead of unfolding the rules.
-/

namespace Sys2Proof.Machine

/-! ### Events -/

/-- In OFF and DONE an event changes nothing (R144). -/
theorem State.takeEvent_idle {s : State} (e : Event) (h : s.busy = false) : s.takeEvent e = .next s := by
  simp [State.takeEvent, h]

/-- What an active exchange does before a possible entry into DONE: only RX_KIND, BUF, COUNT, EXPECTED, RX_SEEN, ELAPSED and
PHASE can differ, and PHASE stays active. -/
structure State.Advances (s u : State) (e : Event) : Prop where
  cfg     : u.cfg = s.cfg
  reqOp   : u.reqOp = s.reqOp
  mode    : u.mode = s.mode
  outcome : u.outcome = s.outcome
  refused : u.refused = s.refused
  inputs  : u.inputs = s.inputs
  emitted : u.emitted = s.emitted
  busy    : u.busy = true
  elapsed : u.elapsed = s.elapsed + if e = .tick then 1 else 0

/-- An RX event advances the exchange, or advances it and raises an outcome. -/
theorem State.receive_shape {s t : State} {b : Byte} (hb : s.busy = true) (h : s.receive b = .next t) :
    ∃ u, s.Advances u (.rx b) ∧ (t = u ∨ ∃ x, t = u.raise x) := by
  unfold State.receive at h
  split at h
  · rename_i hp; simp [State.busy, hp, Phase.idle] at hb
  · simp only [Host.Outcome.next.injEq] at h
    subst h
    refine ⟨_, ?_, .inl rfl⟩
    unfold State.rxInSeeking
    split <;> constructor <;> simp_all [State.busy, Phase.idle]
  · have hu : s.Advances (s.take b) (.rx b) := by constructor <;> simp_all [State.busy]
    have ha : ∀ k n p, p.idle = false → s.Advances ((s.take b).accept k n p) (.rx b) := by
      intro k n p hp
      constructor <;> simp_all [State.busy]
    unfold State.rxInHaveOpcode State.classify at h
    split at h
    · split at h <;> simp only [Host.Outcome.next.injEq, reduceCtorEq] at h <;> subst h
      · exact ⟨_, ha _ _ _ rfl, .inl rfl⟩
      · exact ⟨_, ha _ _ _ rfl, .inl rfl⟩
    · split at h
      · simp only [Host.Outcome.next.injEq] at h; subst h; exact ⟨_, ha _ _ _ rfl, .inl rfl⟩
      · split at h <;> simp only [Host.Outcome.next.injEq] at h <;> subst h
        · exact ⟨_, ha _ _ _ rfl, .inl rfl⟩
        · exact ⟨_, hu, .inr ⟨_, rfl⟩⟩
  · unfold State.rxInSizing State.rxLengthHigh State.revise State.rxLengthLow at h
    split at h
    · split at h <;> simp only [Host.Outcome.next.injEq, reduceCtorEq] at h
      subst h
      refine ⟨_, ?_, .inl rfl⟩
      constructor <;> simp_all [State.busy, Phase.idle]
    · simp only [Host.Outcome.next.injEq] at h; subst h
      refine ⟨_, ?_, .inl rfl⟩
      constructor <;> simp_all [State.busy]
  · have hu : s.Advances (s.take b) (.rx b) := by constructor <;> simp_all [State.busy]
    refine ⟨s.take b, hu, ?_⟩
    unfold State.rxInCollecting State.settle State.complete State.conclude at h
    repeat' split at h
    all_goals simp only [Host.Outcome.next.injEq, reduceCtorEq] at h
    all_goals first
      | exact .inr ⟨_, h.symm⟩
      | exact .inl h.symm
  · rename_i hp; simp [State.busy, hp, Phase.idle] at hb

/-- What an event can do: nothing in OFF and DONE; in an active phase the exchange advances, and perhaps an outcome is
raised. -/
theorem State.takeEvent_shape {s t : State} {e : Event} (h : s.takeEvent e = .next t) :
    (s.busy = false ∧ t = s) ∨
    (s.busy = true ∧ ∃ u, s.Advances u e ∧ (t = u ∨ ∃ x, t = u.raise x)) := by
  by_cases hb : s.busy = true
  · right
    refine ⟨hb, ?_⟩
    simp only [State.takeEvent, hb, if_true] at h
    have hs : e ≠ .tick → s.Advances s e := fun he => ⟨rfl, rfl, rfl, rfl, rfl, rfl, rfl, hb, by simp [he]⟩
    cases e with
    | rx b => exact State.receive_shape hb h
    | rxNone =>
      simp only [Host.Outcome.next.injEq] at h
      subst h
      refine ⟨s, hs (by simp), ?_⟩
      unfold State.emptyPoll
      split
      · exact .inr ⟨_, rfl⟩
      · exact .inl rfl
    | tick =>
      simp only [Host.Outcome.next.injEq] at h
      subst h
      refine ⟨s.countTick, by constructor <;> simp_all [State.busy], ?_⟩
      unfold State.tickOnce
      split
      · exact .inr ⟨_, rfl⟩
      · exact .inl rfl
    | xportErr =>
      simp only [Host.Outcome.next.injEq] at h
      subst h
      exact ⟨s, hs (by simp), .inr ⟨_, rfl⟩⟩
  · left
    simp only [Bool.not_eq_true] at hb
    rw [State.takeEvent_idle e hb] at h
    simp only [Host.Outcome.next.injEq] at h
    exact ⟨hb, h.symm⟩

/-! ### Deliveries -/

@[simp] theorem State.deliver_nil (s : State) : s.deliver [] = .next s := rfl

/-- A delivery takes its first byte, then the rest. -/
theorem State.deliver_cons {s t : State} {b : Byte} {bs : List Byte} (h : s.takeEvent (.rx b) = .next t) :
    s.deliver (b :: bs) = t.deliver bs := by simp [State.deliver, h]

/-- A delivery that answers has taken its first byte. -/
theorem State.deliver_cons_next {s t : State} {b : Byte} {bs : List Byte} (h : s.deliver (b :: bs) = .next t) :
    ∃ u, s.takeEvent (.rx b) = .next u ∧ u.deliver bs = .next t := by
  unfold State.deliver at h
  split at h
  · exact ⟨_, ‹_›, h⟩
  · simp at h
  · simp at h

/-- In OFF and DONE delivered bytes change nothing. -/
theorem State.deliver_idle {s : State} (bs : List Byte) (h : s.busy = false) : s.deliver bs = .next s := by
  induction bs with
  | nil => rfl
  | cons b bs ih => rw [State.deliver_cons (State.takeEvent_idle _ h), ih]

/-- What a property needs so that a delivery has it: it holds of nothing happening, and a byte's event keeps it. -/
theorem State.deliver_induction {R : State → State → Prop} (hrefl : ∀ s, R s s)
    (hstep : ∀ s u t b, s.takeEvent (.rx b) = .next u → R u t → R s t) {bs : List Byte} {s t : State}
    (h : s.deliver bs = .next t) : R s t := by
  induction bs generalizing s with
  | nil =>
    simp only [State.deliver_nil, Host.Outcome.next.injEq] at h
    subst h
    exact hrefl _
  | cons b bs ih =>
    obtain ⟨u, hu, hd⟩ := State.deliver_cons_next h
    exact hstep _ _ _ _ hu (ih hd)

/-! ### Commands -/

/-- BUILD emits one frame on ENC or is refused (R110, R114). -/
theorem State.buildOnEnc_cases (s : State) (op : Op) (a : Nat) (d : List Byte) (l : Nat) :
    (∃ F, buildFrame s.cfg op a d l = some F ∧ s.buildOnEnc op a d l = s.emit (.encFrame F)) ∨
    (buildFrame s.cfg op a d l = none ∧ s.buildOnEnc op a d l = s.refuse) := by
  unfold State.buildOnEnc
  split
  · rename_i F hF; exact .inl ⟨F, hF, rfl⟩
  · rename_i hF; exact .inr ⟨hF, rfl⟩

/-- BEGIN is refused while BUSY or where BUILD is, and else opens the exchange and sends the frame (R140). -/
theorem State.beginWith_cases (s : State) (op : Op) (a : Nat) (d : List Byte) (l : Nat) (m : Mode) :
    ((s.busy = true ∨ buildFrame s.cfg op a d l = none) ∧ s.beginWith op a d l m = s.refuse) ∨
    (s.busy = false ∧ ∃ F, buildFrame s.cfg op a d l = some F ∧
      s.beginWith op a d l m = (s.openExchange op m).emit (.tx F)) := by
  unfold State.beginWith
  split
  · rename_i hb; exact .inl ⟨.inl hb, rfl⟩
  · rename_i hb
    simp only [Bool.not_eq_true] at hb
    split
    · rename_i F hF; exact .inr ⟨hb, F, hF, rfl⟩
    · rename_i hF; exact .inl ⟨.inr hF, rfl⟩

/-- LISTEN is refused while BUSY, and else opens the exchange (R141). -/
theorem State.listenWith_cases (s : State) (op : Op) (m : Mode) :
    (s.busy = true ∧ s.listenWith op m = s.refuse) ∨
    (s.busy = false ∧ s.listenWith op m = s.openExchange op m) := by
  unfold State.listenWith
  split
  · rename_i hb; exact .inl ⟨hb, rfl⟩
  · rename_i hb; exact .inr ⟨by simpa using hb, rfl⟩

/-! ### Steps -/

/-- With nothing pending, nothing changes. -/
theorem step_nil {s : State} (h : s.inputs = []) : step s = .next s := by simp [step, h]

/-- A step runs the row its oldest input decodes to. -/
theorem step_decoded {s : State} {inp : Input} {pending left : List Input} {i : Instr}
    (h : s.inputs = inp :: pending) (hd : decode s.cfg s.context inp = .ok (i, left)) :
    step s = exec i { s with inputs := left ++ pending } := by simp [step, h, hd]

/-- What a step that answers has done. -/
theorem step_next {s t : State} (h : step s = .next t) :
    (s.inputs = [] ∧ t = s) ∨
    ∃ inp pending i left, s.inputs = inp :: pending ∧ decode s.cfg s.context inp = .ok (i, left) ∧
      exec i { s with inputs := left ++ pending } = .next t := by
  unfold step at h
  split at h
  · rename_i hi
    simp only [Host.Outcome.next.injEq] at h
    exact .inl ⟨hi, h.symm⟩
  · rename_i inp pending hi
    split at h
    · rename_i i left hd
      exact .inr ⟨inp, pending, i, left, hi, hd, h⟩
    · simp at h

end Sys2Proof.Machine
end

