-- ==== Sys2Proof/Laws/Outside.lean ====
section
/-!
SUPPORT. No event reads REFUSED, the pending inputs or what has been emitted: two states that differ only there take an event
alike. Statements about runs rest on this.
-/

namespace Sys2Proof.Machine

/-- The answer with its next state changed. -/
def Answer.map (f : State → State) : Answer → Answer
  | .next t => .next (f t)
  | .fault r => .fault r
  | .refused r => .refused r

@[simp] theorem Answer.map_next (f : State → State) (t : State) : Answer.map f (.next t) = .next (f t) := rfl

@[simp] theorem Answer.map_fault (f : State → State) (r : Fault) : Answer.map f (.fault r) = .fault r := rfl

/-- s with another REFUSED bit and other pending inputs, and with earlier outputs put before its own. -/
def State.outside (s : State) (refused : Bool) (inputs : List Input) (before : List Emit) : State :=
  { s with refused := refused, inputs := inputs, emitted := before ++ s.emitted }

variable (s : State) (r : Bool) (l : List Input) (m : List Emit)

@[simp] theorem State.outside_cfg : (s.outside r l m).cfg = s.cfg := rfl
@[simp] theorem State.outside_phase : (s.outside r l m).phase = s.phase := rfl
@[simp] theorem State.outside_reqOp : (s.outside r l m).reqOp = s.reqOp := rfl
@[simp] theorem State.outside_rxKind : (s.outside r l m).rxKind = s.rxKind := rfl
@[simp] theorem State.outside_mode : (s.outside r l m).mode = s.mode := rfl
@[simp] theorem State.outside_buf : (s.outside r l m).buf = s.buf := rfl
@[simp] theorem State.outside_count : (s.outside r l m).count = s.count := rfl
@[simp] theorem State.outside_expected : (s.outside r l m).expected = s.expected := rfl
@[simp] theorem State.outside_rxSeen : (s.outside r l m).rxSeen = s.rxSeen := rfl
@[simp] theorem State.outside_elapsed : (s.outside r l m).elapsed = s.elapsed := rfl
@[simp] theorem State.outside_outcome : (s.outside r l m).outcome = s.outcome := rfl
@[simp] theorem State.outside_refused : (s.outside r l m).refused = r := rfl
@[simp] theorem State.outside_inputs : (s.outside r l m).inputs = l := rfl
@[simp] theorem State.outside_emitted : (s.outside r l m).emitted = m ++ s.emitted := rfl
@[simp] theorem State.outside_busy : (s.outside r l m).busy = s.busy := rfl
@[simp] theorem State.outside_context : (s.outside r l m).context = s.context := rfl

@[simp] theorem State.outside_self : s.outside s.refused s.inputs [] = s := rfl

@[simp] theorem State.outside_take (b : Byte) : (s.outside r l m).take b = (s.take b).outside r l m := rfl

@[simp] theorem State.outside_accept (k : RxKind) (n : Nat) (p : Phase) :
    (s.outside r l m).accept k n p = (s.accept k n p).outside r l m := rfl

@[simp] theorem State.outside_countTick : (s.outside r l m).countTick = s.countTick.outside r l m := rfl

@[simp] theorem State.outside_raise (x : ExchangeOutcome) :
    (s.outside r l m).raise x = (s.raise x).outside r l m := by simp [State.outside, State.raise]

/-- RX takes the same rule, whatever stands outside the exchange registers. -/
theorem State.receive_outside (b : Byte) :
    (s.outside r l m).receive b = (s.receive b).map (State.outside · r l m) := by
  unfold State.receive
  simp only [State.outside_phase]
  split
  · rfl
  · by_cases h : b = s.cfg.pStart <;> simp [State.rxInSeeking, State.outside, h]
  · unfold State.rxInHaveOpcode State.classify
    simp only [State.outside_take, State.outside_cfg, State.outside_reqOp, State.outside_accept, State.outside_raise]
    repeat' split
    all_goals rfl
  · by_cases h : s.count = 3
    · cases hm : memRead (s.buf ++ [b]) 2 2
      · simp [State.rxInSizing, State.rxLengthHigh, State.revise, h, hm]
      · simp [State.rxInSizing, State.rxLengthHigh, State.revise, h, hm]
        rfl
    · simp [State.rxInSizing, State.rxLengthLow, h]
  · unfold State.rxInCollecting State.settle State.complete State.conclude State.checkFails
    simp only [State.outside_take, State.outside_count, State.outside_buf, State.outside_cfg, State.outside_expected,
      State.outside_rxKind, State.outside_reqOp, State.outside_raise]
    repeat' split
    all_goals rfl
  · rfl

/-- An event does the same, whatever stands outside the exchange registers. -/
theorem State.takeEvent_outside (e : Event) :
    (s.outside r l m).takeEvent e = (s.takeEvent e).map (State.outside · r l m) := by
  by_cases hb : s.busy = true
  · simp only [State.takeEvent, State.outside_busy, hb, if_true]
    cases e with
    | rx b => exact State.receive_outside s r l m b
    | rxNone =>
      by_cases h : s.context.failsFast = true <;> simp [State.emptyPoll, h]
    | tick =>
      by_cases h : s.elapsed + 1 = s.cfg.budgetTicks <;> simp [State.tickOnce, h]
    | xportErr => simp
  · simp only [Bool.not_eq_true] at hb
    rw [State.takeEvent_idle e hb, State.takeEvent_idle e (by simpa using hb), Answer.map_next]

/-- A delivery does the same, whatever stands outside the exchange registers. -/
theorem State.deliver_outside (bs : List Byte) :
    (s.outside r l m).deliver bs = (s.deliver bs).map (State.outside · r l m) := by
  induction bs generalizing s with
  | nil => rfl
  | cons b bs ih =>
    simp only [State.deliver, State.takeEvent_outside s r l m]
    cases s.takeEvent (.rx b) with
    | next t => exact ih t
    | fault r => rfl
    | refused r => rfl

end Sys2Proof.Machine
end

