-- ==== Sys2Proof/Laws/PerInstr.lean ====
section
/-!
SUPPORT. Decoding an encoded instruction, constructor by constructor.
-/

namespace Sys2Proof.Laws.RoundTrip

/-- Under every configuration, in every context that selects the row, a well-formed instruction's encoding decodes to it
and leaves nothing pending. -/
def Statement (i : Instr) : Prop :=
  ∀ (c : Config) (x : Context), i.wellFormed c = true → x.selects i = true → decode c x (encode c i) = .ok (i, [])

theorem reqRead (addr len : Half) : Statement (.reqRead addr len) := by
  intro c x _ _
  simp [encode, decode, decodeRequest_requestFrame c .read addr len [] rfl (fun _ => rfl)]

theorem reqWrite (addr len : Half) (payload : List Byte) : Statement (.reqWrite addr len payload) := by
  intro c x h _
  simp [encode, decode, decodeRequest_requestFrame c .write addr len payload h (fun h => by cases h)]

theorem rspAckRead (len : Half) (payload : List Byte) : Statement (.rspAckRead len payload) := by
  intro c x h hx
  simp [Context.selects] at hx
  exact decode_delivery hx.1 (by rw [hx.2]; exact decodeResponse_readAckFrame c len payload h)

theorem rspAckWrite : Statement .rspAckWrite := by
  intro c x _ hx
  simp [Context.selects] at hx
  exact decode_delivery hx.1 (by rw [hx.2]; exact (decodeResponse_shortFrame c).1)

theorem rspNack : Statement .rspNack := by
  intro c x _ hx
  exact decode_delivery (by simpa [Context.selects] using hx) ((decodeResponse_shortFrame c).2.1 _)

theorem rspReady : Statement .rspReady := by
  intro c x _ hx
  exact decode_delivery (by simpa [Context.selects] using hx) ((decodeResponse_shortFrame c).2.2 _)

theorem rspBadOpcode (b : Byte) : Statement (.rspBadOpcode b) := by
  intro c x h hx
  exact decode_delivery (by simpa [Context.selects] using hx) (decodeResponse_badOpcode c _ b h)

theorem build (op : Op) (addr : Nat) (payload : List Byte) (length : Nat) :
    Statement (.build op addr payload length) := fun _ _ _ _ => rfl

theorem encodeControl (v : Nat) : Statement (.encodeControl v) := fun _ _ _ _ => rfl

theorem beginExchange (op : Op) (addr : Nat) (payload : List Byte) (length : Nat) (mode : Mode) :
    Statement (.beginExchange op addr payload length mode) := fun _ _ _ _ => rfl

theorem listen (op : Op) (mode : Mode) : Statement (.listen op mode) := fun _ _ _ _ => rfl

theorem decodePage (buffer : List Byte) : Statement (.decodePage buffer) := fun _ _ _ _ => rfl

theorem reset : Statement .reset := fun _ _ _ _ => rfl

theorem rxSeeking (b : Byte) : Statement (.rxSeeking b) := by
  intro c x _ hx
  simp [Context.selects] at hx
  simp [encode, decode, eventRow, rxRow, hx, Phase.idle]

theorem rxHaveOpcode (b : Byte) : Statement (.rxHaveOpcode b) := by
  intro c x _ hx
  simp [Context.selects] at hx
  simp [encode, decode, eventRow, rxRow, hx, Phase.idle]

theorem rxSizingLo (b : Byte) : Statement (.rxSizingLo b) := by
  intro c x _ hx
  simp [Context.selects] at hx
  simp [encode, decode, eventRow, rxRow, hx, Phase.idle]

theorem rxSizingHi (b : Byte) : Statement (.rxSizingHi b) := by
  intro c x _ hx
  simp [Context.selects] at hx
  simp [encode, decode, eventRow, rxRow, hx, Phase.idle]

theorem rxCollecting (b : Byte) : Statement (.rxCollecting b) := by
  intro c x _ hx
  simp [Context.selects] at hx
  simp [encode, decode, eventRow, rxRow, hx, Phase.idle, Nat.ne_of_lt hx.2]

theorem rxComplete (b : Byte) : Statement (.rxComplete b) := by
  intro c x _ hx
  simp [Context.selects] at hx
  simp [encode, decode, eventRow, rxRow, hx, Phase.idle]

theorem rxNone : Statement .rxNone := by
  intro c x _ hx
  simp [Context.selects] at hx
  simp [encode, decode, eventRow, hx]

theorem rxNonePing : Statement .rxNonePing := by
  intro c x _ hx
  simp [Context.selects] at hx
  simp [encode, decode, eventRow, hx]

theorem tick : Statement .tick := by
  intro c x _ hx
  simp [Context.selects] at hx
  simp [encode, decode, eventRow, hx]

theorem xportErr : Statement .xportErr := by
  intro c x _ hx
  simp [Context.selects] at hx
  simp [encode, decode, eventRow, hx]

theorem eventIdle (e : Event) : Statement (.eventIdle e) := by
  intro c x _ hx
  simp [Context.selects] at hx
  simp [encode, decode, eventRow, hx]

theorem readPage : Statement .readPage := fun _ _ _ _ => rfl

theorem writeBytes (addr : Nat) (payload : List Byte) : Statement (.writeBytes addr payload) := fun _ _ _ _ => rfl

theorem writeControl (v : Nat) : Statement (.writeControl v) := fun _ _ _ _ => rfl

theorem probe (mode : Mode) : Statement (.probe mode) := fun _ _ _ _ => rfl

end Sys2Proof.Laws.RoundTrip
end

