-- ==== Sys2Proof/Tests/Slice0.lean ====
section
/-!
SUPPORT. Tests: what the checks refuse, the decoding of frames written out from the spec's layouts, the spec's own test
vectors (95_test_vectors.md, by id), one step each, and a witness for the hypotheses of every obligation that has some.
Expected values are the spec's; parameter values are this file's own, and 95_test_vectors.md says the vectors hold for any.
-/

namespace Sys2Proof.Tests

open Sys2Proof Sys2Proof.Machine

/-! ### Small states -/

/-- A configuration with CHECK_LEN = 0: START F0, END F1, READ F2, WRITE F3, ACK F4, NACK F5, READY F6; map version at 0,
firmware 2, control 4, status 6, concentration 8, temperature 12, humidity 16, id 240; BUDGET_TICKS 3. -/
def c0 : Config := { checkLen := 0 }

/-- The same with CHECK_LEN = 1. -/
def c1 : Config := { checkLen := 1 }

/-- The registers at reset, under c. -/
def idle (c : Config) : State := { State.reset with cfg := c }

/-- An exchange just opened. -/
def seeking (c : Config) (op : Op) (m : Mode) : State :=
  { idle c with phase := .seeking, reqOp := some op, mode := some m }

/-- START has been buffered. -/
def started (c : Config) (op : Op) : State :=
  { seeking c op .normal with phase := .haveOpcode, buf := [c.pStart], count := 1, rxSeen := true }

/-- A read-ACK whose length field is incomplete. -/
def sizing (buf : List Byte) : State :=
  { started c0 .read with phase := .sizing, rxKind := some .ack, buf := buf, count := buf.length, expected := 5 }

/-- A frame of a known length, partly received. -/
def collecting (c : Config) (op : Op) (k : RxKind) (expected : Nat) (buf : List Byte) : State :=
  { started c op with phase := .collecting, rxKind := some k, buf := buf, count := buf.length, expected := expected }

/-- An exchange that has ended. -/
def ended (x : ExchangeOutcome) : State := { started c0 .read with phase := .done, outcome := some x }

/-- A field of the next state. -/
def got {α : Type} (f : State → α) : Answer → Option α
  | .next t => some (f t)
  | .fault _ => none
  | .refused _ => none

/-! ### The checks: each refuses an ill-formed term -/

/-- WF1: two of the seven bytes equal (R8). -/
theorem test_wf1_refused : Config.ofParams { c0.toParams with pOpNack := 0xF1 } = none := by decide

/-- WF2: a field that reaches byte 256 (R11, R201 a). -/
theorem test_wf2_page_refused : Config.ofParams { c0.toParams with offId := 253 } = none := by decide

/-- WF2: status not two bytes after control (R201 b). -/
theorem test_wf2_status_refused : Config.ofParams { c0.toParams with offStatus := 7 } = none := by decide

/-- WF2: two fields that overlap (R201 c). -/
theorem test_wf2_overlap_refused : Config.ofParams { c0.toParams with offTemp := 11 } = none := by decide

/-- WF2: a field on the reserved byte (R201 c). -/
theorem test_wf2_reserved_refused : Config.ofParams { c0.toParams with offFwVer := 5 } = none := by decide

/-- CHECK_LEN above 1 (R9). -/
theorem test_checkLen_refused : Config.ofParams { c0.toParams with checkLen := 2 } = none := by decide

/-- BUDGET_TICKS = 0 (R12). -/
theorem test_budget_refused : Config.ofParams { c0.toParams with fTick := 0 } = none := by decide

/-- Parameters that pass all checks. -/
theorem test_config_accepted : Config.ofParams c1.toParams = some c1 := by decide

/-- A write payload of 65536 bytes (R112). -/
theorem test_reqWrite_ill_formed : (Instr.reqWrite 0 0 (List.replicate 65536 0)).wellFormed c0 = false := by
  rw [Instr.wellFormed, payloadFits, List.length_replicate]
  decide

/-- A read-ACK whose length field says 3 and which carries 2 bytes (R84). -/
theorem test_rspAckRead_ill_formed : (Instr.rspAckRead 3 [1, 2]).wellFormed c0 = false := by decide

/-- A response opcode is no bad opcode (R89). -/
theorem test_rspBadOpcode_ill_formed : (Instr.rspBadOpcode 0xF5).wellFormed c0 = false := by decide

/-! ### Decoding -/

theorem test_decode_reqRead : decodeRequest c0 [0xF0, 0xF2, 0x34, 0x12, 0x00, 0x01, 0xF1] = .ok (.reqRead 0x1234 0x0100) := by
  decide

/-- LEN is the caller's and END and START are data (E7, E8). -/
theorem test_decode_reqWrite :
    decodeRequest c0 [0xF0, 0xF3, 0x10, 0x00, 0x03, 0x00, 0xF1, 0xF0, 0xF1] =
      .ok (.reqWrite 0x0010 3 [0xF1, 0xF0]) := by decide

theorem test_decode_rspAckRead :
    decodeResponse c0 (some .read) [0xF0, 0xF4, 0x03, 0x00, 0x11, 0x22, 0x33, 0xF1] =
      .ok (.rspAckRead 3 [0x11, 0x22, 0x33]) := by decide

theorem test_decode_rspAckWrite : decodeResponse c0 (some .write) [0xF0, 0xF4, 0xF1] = .ok .rspAckWrite := by decide

theorem test_decode_rspNack : decodeResponse c0 (some .write) [0xF0, 0xF5, 0xF1] = .ok .rspNack := by decide

theorem test_decode_rspReady : decodeResponse c0 (some .read) [0xF0, 0xF6, 0xF1] = .ok .rspReady := by decide

theorem test_decode_rspBadOpcode : decodeResponse c0 (some .read) [0xF0, 0xF2] = .ok (.rspBadOpcode 0xF2) := by decide

theorem test_decode_no_end : decodeResponse c0 (some .read) [0xF0, 0xF5, 0x00] = .error .badEnd := by decide

theorem test_decode_request_bad_opcode :
    decodeRequest c0 [0xF0, 0xF4, 0x00, 0x00, 0x00, 0x00, 0xF1] = .error .badOpcode := by decide

theorem test_decode_read_with_payload :
    decodeRequest c0 [0xF0, 0xF2, 0x00, 0x00, 0x01, 0x00, 0xAA, 0xF1] = .error .badLength := by decide

/-- A command is its tag (R91), a pseudo-command its own (R94). -/
theorem test_decode_commands (x : Context) :
    decode c0 x (.cmd (.build .write 1 [2] 3)) = .ok (.build .write 1 [2] 3, []) ∧
    decode c0 x (.cmd (.encodeControl 4)) = .ok (.encodeControl 4, []) ∧
    decode c0 x (.cmd (.beginExchange .read 0 [] 256 .ping)) = .ok (.beginExchange .read 0 [] 256 .ping, []) ∧
    decode c0 x (.cmd (.listen .write .normal)) = .ok (.listen .write .normal, []) ∧
    decode c0 x (.cmd (.decodePage [7])) = .ok (.decodePage [7], []) ∧
    decode c0 x (.cmd .reset) = .ok (.reset, []) ∧
    decode c0 x (.pseudo .readPage) = .ok (.readPage, []) ∧
    decode c0 x (.pseudo (.writeBytes 5 [6])) = .ok (.writeBytes 5 [6], []) ∧
    decode c0 x (.pseudo (.writeControl 1)) = .ok (.writeControl 1, []) ∧
    decode c0 x (.pseudo (.probe .ping)) = .ok (.probe .ping, []) := ⟨rfl, rfl, rfl, rfl, rfl, rfl, rfl, rfl, rfl, rfl⟩

/-- An event is the row that the registers select (the opcode table's "match" column). -/
theorem test_decode_events :
    eventRow (seeking c0 .read .normal).context (.rx 9) = .rxSeeking 9 ∧
    eventRow (started c0 .read).context (.rx 9) = .rxHaveOpcode 9 ∧
    eventRow (sizing [0xF0, 0xF4]).context (.rx 9) = .rxSizingLo 9 ∧
    eventRow (sizing [0xF0, 0xF4, 0x03]).context (.rx 9) = .rxSizingHi 9 ∧
    eventRow (collecting c0 .read .ack 8 [0xF0, 0xF4, 0x03, 0x00]).context (.rx 9) = .rxCollecting 9 ∧
    eventRow (collecting c0 .read .nack 3 [0xF0, 0xF5]).context (.rx 9) = .rxComplete 9 ∧
    eventRow (seeking c0 .read .normal).context .rxNone = .rxNone ∧
    eventRow (seeking c0 .read .ping).context .rxNone = .rxNonePing ∧
    eventRow (started c0 .read).context .tick = .tick ∧
    eventRow (started c0 .read).context .xportErr = .xportErr ∧
    eventRow (idle c0).context .tick = .eventIdle .tick ∧
    eventRow (ended .ready).context (.rx 9) = .eventIdle (.rx 9) := by decide

/-! ### The frame encoder (E1 to E15, W1, W10, W11) -/

theorem test_E2 :
    got State.emitted (exec (.build .read 0xFFFF [] 0xFFFF) (idle c0)) =
      some [.encFrame [0xF0, 0xF2, 0xFF, 0xFF, 0xFF, 0xFF, 0xF1]] := by decide

theorem test_E4 :
    got (fun t => (t.refused, t.emitted)) (exec (.build .read 0 [0x01] 1) (idle c0)) = some (true, []) := by decide

theorem test_E7 :
    got State.emitted (exec (.reqWrite 0x0010 3 [0xAA]) (idle c0)) =
      some [.encFrame [0xF0, 0xF3, 0x10, 0x00, 0x03, 0x00, 0xAA, 0xF1]] := by decide

theorem test_W1 :
    got State.emitted (exec (.reqRead 0 256) (idle c0)) =
      some [.encFrame [0xF0, 0xF2, 0x00, 0x00, 0x00, 0x01, 0xF1]] := by decide

theorem test_E11 : got State.emitted (exec (.encodeControl 0x1FF) (idle c0)) = some [.encControl 4 [0xFF]] := by decide

theorem test_E12 : got State.emitted (exec (.encodeControl 0x100) (idle c0)) = some [.encControl 4 [0x00]] := by decide

theorem test_E13 :
    got State.emitted (exec (.probe .normal) (idle c0)) =
      some [.tx [0xF0, 0xF2, 0x00, 0x00, 0x00, 0x00, 0xF1]] := by decide

theorem test_E15 :
    got State.emitted (exec (.build .write 0x20 [0x05] 1) (idle c1)) =
      some [.encFrame [0xF0, 0xF3, 0x20, 0x00, 0x01, 0x00, 0x05,
        Config.checksum [0xF3, 0x20, 0x00, 0x01, 0x00, 0x05], 0xF1]] := rfl

theorem test_W10_readPage :
    got State.emitted (exec .readPage (idle c0)) = some [.tx [0xF0, 0xF2, 0x00, 0x00, 0x00, 0x01, 0xF1]] := by decide

theorem test_W10_writeBytes :
    got State.emitted (exec (.writeBytes 0x0102 [7, 8]) (idle c0)) =
      some [.tx [0xF0, 0xF3, 0x02, 0x01, 0x02, 0x00, 0x07, 0x08, 0xF1]] := by decide

theorem test_W11 :
    got State.emitted (exec (.writeControl 0x01) (idle c0)) =
      some [.tx [0xF0, 0xF3, 0x04, 0x00, 0x01, 0x00, 0x01, 0xF1]] := by decide

/-! ### Opening, refusing, abandoning (T8, T9, T11, T13) -/

theorem test_T8 :
    got (fun t => (t.refused, t.phase, t.count, t.emitted)) (exec (.beginExchange .read 0 [] 256 .normal) (started c0 .read)) =
      some (true, .haveOpcode, 1, []) := by decide

theorem test_T9 :
    got (fun t => (t.refused, t.phase, t.outcome, t.count)) (exec (.beginExchange .read 0 [] 256 .normal) (ended .rejected)) =
      some (false, .seeking, none, 0) := by decide

theorem test_T11 :
    got (fun t => (t.phase, t.outcome, t.emitted)) (exec .reset (started c0 .read)) = some (.off, none, []) := by decide

theorem test_T13 :
    got (fun t => (t.phase, t.reqOp, t.emitted)) (exec (.listen .write .normal) (idle c0)) =
      some (.seeking, some .write, []) := by decide

/-! ### The classifier (RC1 to RC20, K1 to K6) -/

theorem test_RC2 :
    got (fun t => (t.outcome, t.count, t.expected)) (exec (.rspAckRead 3 [0x11, 0x22, 0x33]) (seeking c0 .read .normal)) =
      some (some (.ack [0x11, 0x22, 0x33]), 8, 8) := by decide

/-- RC8: START and END bytes in the payload are data. -/
theorem test_RC8 :
    got (fun t => (t.outcome, t.count, t.expected)) (exec (.rspAckRead 2 [0xF1, 0xF0]) (seeking c0 .read .normal)) =
      some (some (.ack [0xF1, 0xF0]), 7, 7) := by decide

theorem test_RC3 :
    got (fun t => (t.outcome, t.count, t.expected)) (exec .rspNack (seeking c0 .read .normal)) =
      some (some .rejected, 3, 3) := by decide

theorem test_RC7 :
    got (fun t => (t.outcome, t.count, t.expected)) (exec .rspReady (seeking c0 .read .normal)) =
      some (some .ready, 3, 3) := by decide

theorem test_RC10 :
    got (fun t => (t.outcome, t.count, t.expected)) (exec .rspAckWrite (seeking c0 .write .normal)) =
      some (some (.ack []), 3, 3) := by decide

theorem test_RC5 :
    got (fun t => (t.outcome, t.count, t.expected)) (exec (.rspBadOpcode 0xF0) (seeking c0 .read .normal)) =
      some (some (.malformed .badOpcode), 2, 0) := by decide

/-- RC4: the third byte of a NACK is not END. -/
theorem test_RC4 :
    got (fun t => (t.outcome, t.count)) (exec (.rxComplete 0x00) (collecting c0 .read .nack 3 [0xF0, 0xF5])) =
      some (some (.malformed .badEnd), 3) := by decide

/-- RC13: LEN_HI = 0xFF after LEN_LO = 0xFF. -/
theorem test_RC13 :
    got (fun t => (t.phase, t.count, t.expected)) (exec (.rxSizingHi 0xFF) (sizing [0xF0, 0xF4, 0xFF])) =
      some (.collecting, 4, 65540) := by decide

theorem test_RC14 :
    got (fun t => (t.phase, t.count, t.expected)) (exec (.rxSizingLo 0x00) (sizing [0xF0, 0xF4])) =
      some (.sizing, 3, 5) := by decide

/-- RC11: in a WRITE exchange the byte after ACK is the END position. -/
theorem test_RC11 :
    got (fun t => (t.phase, t.rxKind, t.expected)) (exec (.rxHaveOpcode 0xF4) (started c0 .write)) =
      some (.collecting, some .ack, 3) := by decide

/-- RC18: END in SEEKING is noise. -/
theorem test_RC18 :
    got (fun t => (t.phase, t.count, t.rxSeen)) (exec (.rxSeeking 0xF1) (seeking c0 .read .normal)) =
      some (.seeking, 0, true) := by decide

/-- RC2, in the payload. -/
theorem test_RC2_payload :
    got (fun t => (t.phase, t.count)) (exec (.rxCollecting 0x11) (collecting c0 .read .ack 8 [0xF0, 0xF4, 0x03, 0x00])) =
      some (.collecting, 5) := by decide

/-- K3: NACK with its check byte. -/
theorem test_K3 :
    got (fun t => (t.outcome, t.expected)) (exec .rspNack (seeking c1 .write .normal)) = some (some .rejected, 4) := by
  rw [show exec .rspNack (seeking c1 .write .normal) =
    (collecting c1 .write .nack 4 [0xF0, 0xF5, Config.checksum [0xF5]]).deliver [0xF1] from rfl]
  simp [State.deliver, State.takeEvent, State.receive, State.rxInCollecting, State.settle, State.complete,
    State.checkFails, State.conclude, collecting, started, seeking, idle, State.busy, Phase.idle, got, c1, slice]

/-- K4, K5: END is tested before the check byte. -/
theorem test_K4 :
    got State.outcome (exec (.rxComplete 0x00) (collecting c1 .write .nack 4 [0xF0, 0xF5, 0x77])) =
      some (some (.malformed .badEnd)) := by decide

/-! ### The other events (T1 to T14) -/

theorem test_T1 :
    got (fun t => (t.phase, t.elapsed, t.outcome)) (exec .tick { seeking c0 .read .normal with elapsed := 1 }) =
      some (.seeking, 2, none) := by decide

theorem test_T2 :
    got (fun t => (t.outcome, t.elapsed, t.emitted)) (exec .tick { seeking c0 .read .normal with elapsed := 2 }) =
      some (some .timeout, 3, [.close]) := by decide

theorem test_T4 :
    got (fun t => (t.outcome, t.elapsed)) (exec .rxNonePing (seeking c0 .read .ping)) = some (some .timeout, 0) := by
  decide

theorem test_T6 :
    got (fun t => (t.outcome, t.phase)) (exec .rxNone (seeking c0 .read .normal)) = some (none, .seeking) := by decide

theorem test_T7 :
    got (fun t => (t.outcome, t.count)) (exec .xportErr (started c0 .read)) = some (some .transportError, 1) := by decide

theorem test_T14 :
    got (fun t => (t.outcome, t.elapsed)) (exec (.eventIdle .tick) { ended .rejected with elapsed := 2 }) =
      some (some .rejected, 2) := by decide

/-! ### The register page (P1 to P15) -/

theorem test_P1 : decodePage c0 (List.replicate 255 0) = some .tooShort := by
  rw [decodePage, List.length_replicate]
  rfl

/-- The fields at the start of a page, the id at 20: map version 3, 1; firmware 7, 2; reserved byte EE; a signalling NaN,
25.0, -0.0; id 78 56 34 12. -/
def sampleBytes : List Byte :=
  [0x03, 0x01, 0x07, 0x02, 0x04, 0xEE, 0x80, 0x00, 0x01, 0x00, 0x80, 0x7F, 0x00, 0x00, 0xC8, 0x41, 0x00, 0x00, 0x00,
    0x80, 0x78, 0x56, 0x34, 0x12]

theorem test_P3_to_P13 :
    pageFields { c0 with offId := 20, wf := by decide } sampleBytes = some {
      mapVerMinor := 3, mapVerMajor := 1, fwVerMinor := 7, fwVerMajor := 2, control := 4, status := 0x80,
      concentration := 0x7F800001, temperature := 0x41C80000, humidity := 0x80000000, deviceId := 0x12345678 } := by
  decide

theorem test_P12 : versionWord 3 1 = 0x0103 := by decide

/-- P3, P5, P6, P8, P9: classes and values of binary32 patterns. -/
theorem test_float_classes :
    f32Scaled 0x3F800000 = some (2 ^ 23, -23) ∧ f32Class 0x80000000 = .zero ∧ f32Class 0x7F800001 = .signallingNaN ∧
    f32Class 0x7FC00000 = .quietNaN ∧ f32Scaled 0x00000001 = some (1, -149) ∧ f32Class 0x7F800000 = .infinity := by
  decide

theorem test_exec_decodePage : got State.emitted (exec (.decodePage []) (idle c0)) = some [.page .tooShort] := by decide

/-! ### Witnesses: states and operands that meet the hypotheses of the obligations, clause by clause -/

theorem witness_ResetGivesTheResetValues : ∃ t, exec .reset (started c0 .read) = .next t := ⟨_, rfl⟩

theorem witness_NothingAdvancesWithoutAnEvent : State.reset.inputs = [] := rfl

theorem witness_StepRunsTheDecodedInstruction :
    decode c0 (started c0 .read).context (.event .tick) = .ok (.tick, []) ∧
    decode c0 (seeking c0 .read .normal).context (.rxFrame 0x00 [0xF0]) = .ok (.rxSeeking 0x00, [.rxFrame 0xF0 []]) ∧
    decode c0 (idle c0).context (.request [0xF0]) = .error .tooShort := by decide

theorem witness_DecodeEncodeIsIdentity :
    (∀ i ∈ [Instr.reqRead 1 2, .reqWrite 1 2 [3], .rspAckRead 1 [3], .rspNack, .rspReady, .rspBadOpcode 0, .rxSeeking 0,
        .rxNone, .tick, .xportErr, .build .read 1 [] 2, .encodeControl 1, .beginExchange .read 1 [] 2 .ping,
        .listen .read .ping, .decodePage [], .reset, .readPage, .writeBytes 1 [2], .writeControl 1, .probe .ping],
      i.wellFormed c0 = true ∧ (seeking c0 .read .normal).context.selects i = true) ∧
    (seeking c0 .write .normal).context.selects .rspAckWrite = true ∧
    (seeking c0 .read .ping).context.selects .rxNonePing = true ∧
    (started c0 .read).context.selects (.rxHaveOpcode 0) = true ∧
    (sizing [0xF0, 0xF4]).context.selects (.rxSizingLo 0) = true ∧
    (sizing [0xF0, 0xF4, 1]).context.selects (.rxSizingHi 0) = true ∧
    (collecting c0 .read .ack 8 [0xF0, 0xF4, 3, 0]).context.selects (.rxCollecting 0) = true ∧
    (collecting c0 .read .nack 3 [0xF0, 0xF5]).context.selects (.rxComplete 0) = true ∧
    (idle c0).context.selects (.eventIdle .tick) = true := by decide

theorem witness_DecodedFramesEncodeBack :
    decodeRequest c0 [0xF0, 0xF2, 1, 0, 2, 0, 0xF1] = .ok (.reqRead 1 2) ∧
    decodeResponse c0 (some .read) [0xF0, 0xF4, 1, 0, 7, 0xF1] = .ok (.rspAckRead 1 [7]) := by decide

theorem witness_WrittenOutFramesDecode : c0.checkLen = 0 := rfl

/-- o + n = |B|, and one more. -/
theorem witness_MemReadIsTheLittleEndianSum : memRead [0x34, 0x12] 0 2 = some 0x1234 ∧ memRead [0x34, 0x12] 1 2 = none := by
  decide

theorem witness_FrameLengths : lengthAgrees 2 [7, 8] = true := by decide

/-- The longest payload that fits, and one byte more. -/
theorem witness_WriteRequestLayout :
    (List.replicate 0xFFFF (0 : Byte)).length ≤ 0xFFFF ∧ 0xFFFF < (List.replicate 0x10000 (0 : Byte)).length := by
  rw [List.length_replicate, List.length_replicate]
  decide

/-- The greatest ADDR, one more, and a READ with a payload. -/
theorem witness_BuildRead :
    got State.refused (exec (.build .read 0xFFFF [] 0) (idle c0)) = some false ∧
    got State.refused (exec (.build .read 0x10000 [] 0) (idle c0)) = some true ∧
    got State.refused (exec (.build .read 0 [] 0x10000) (idle c0)) = some true ∧
    got State.refused (exec (.build .read 0 [1] 1) (idle c0)) = some true := by decide

theorem witness_BuildWrite :
    got State.refused (exec (.build .write 0 [1] 0xFFFF) (idle c0)) = some false ∧
    got State.refused (exec (.build .write 0x10000 [1] 1) (idle c0)) = some true ∧
    got State.refused (exec (.build .write 0 [1] 0x10000) (idle c0)) = some true := by decide

theorem witness_BuiltRequestDecodesBack :
    exec (.build .read 0x1234 [] 256) (idle c0) =
      .next { idle c0 with
        emitted := (idle c0).emitted ++ [.encFrame [0xF0, 0xF2, 0x34, 0x12, 0x00, 0x01, 0xF1]] } := rfl

theorem witness_CombinationalRowsKeepRegisters : ∃ t, exec (.encodeControl 1) (idle c0) = .next t := ⟨_, rfl⟩

/-- Opening commands: from a state that is BUSY, and from OFF and DONE. -/
theorem witness_opening : (started c0 .read).busy = true ∧ (idle c0).busy = false ∧ (ended .ready).busy = false ∧
    opensExchange (.probe .ping) = true := by decide

/-- WRITE_BYTES at the greatest ADDR is accepted, and one above it refused. -/
theorem witness_PseudoCommandsSendTheirFrames_address :
    got State.phase (exec (.writeBytes 0xFFFF [1]) (idle c0)) = some .seeking ∧
    got State.refused (exec (.writeBytes 0x10000 [1]) (idle c0)) = some true := by decide

/-- The longest payload is accepted, and one byte more refused. -/
theorem witness_PseudoCommandsSendTheirFrames_length :
    buildRefused .write 0xFFFF (List.replicate 0xFFFF 0) 0xFFFF = false ∧
    buildRefused .write 0xFFFF (List.replicate 0x10000 0) 0x10000 = true := by
  rw [buildRefused, buildRefused, List.length_replicate, List.length_replicate]
  decide

theorem witness_SeekingTakesOnlyStart :
    got State.phase (exec (.rxSeeking 0xF0) (seeking c0 .read .normal)) = some .haveOpcode ∧
    got State.phase (exec (.rxSeeking 0xF2) (seeking c0 .read .normal)) = some .seeking := by decide

theorem witness_BadOpcodeEndsTheExchange :
    (started c0 .read).phase = .haveOpcode ∧ (0xF0 : Byte) ≠ c0.pOpAck ∧ (0xF0 : Byte) ≠ c0.pOpNack ∧
    (0xF0 : Byte) ≠ c0.pOpReady := by decide

theorem witness_AcceptedOpcodeSetsTheLength :
    (started c0 .read).phase = .haveOpcode ∧ (started c0 .read).reqOp = some .read ∧
    (started c1 .write).reqOp = some .write ∧
    got State.expected (exec (.rxHaveOpcode 0xF4) (started c1 .read)) = some 6 ∧
    got State.expected (exec (.rxHaveOpcode 0xF6) (started c1 .read)) = some 4 := by decide

theorem witness_LengthBytesReviseTheLength :
    (sizing [0xF0, 0xF4]).phase = .sizing ∧ (sizing [0xF0, 0xF4]).count = 2 ∧ (sizing [0xF0, 0xF4, 9]).count = 3 ∧
    (sizing [0xF0, 0xF4, 9]).buf.length = 3 ∧ (sizing [0xF0, 0xF4, 9]).buf[2]? = some 9 := by decide

theorem witness_CollectingAppends :
    (collecting c0 .read .nack 4 [0xF0, 0xF5]).phase = .collecting ∧
    (collecting c0 .read .nack 4 [0xF0, 0xF5]).count + 1 < (collecting c0 .read .nack 4 [0xF0, 0xF5]).expected := by decide

/-- COUNT + 1 above EXPECTED, a state no run reaches. -/
theorem witness_OverLengthGuard :
    (collecting c0 .read .nack 2 [0xF0, 0xF5]).expected < (collecting c0 .read .nack 2 [0xF0, 0xF5]).count + 1 := by decide

theorem witness_CompletionTestsInOrder_end :
    (collecting c0 .read .nack 3 [0xF0, 0xF5]).count + 1 = (collecting c0 .read .nack 3 [0xF0, 0xF5]).expected ∧
    (collecting c0 .read .nack 3 [0xF0, 0xF5]).buf.length = (collecting c0 .read .nack 3 [0xF0, 0xF5]).count ∧
    (0x00 : Byte) ≠ c0.pEnd := by decide

/-- A check byte that is wrong, whatever the checksum is. -/
theorem witness_CompletionTestsInOrder_check :
    c1.checkLen = 1 ∧
    ([0xF0, 0xF5, Config.checksum [0xF5] + 1, 0xF1] : List Byte)[4 - 2]? ≠
      some (Config.checksum (slice [0xF0, 0xF5, Config.checksum [0xF5] + 1, 0xF1] 1 (4 - 2))) := by
  refine ⟨rfl, ?_⟩
  simp [slice]

theorem witness_CompletionByKind :
    got State.outcome (exec (.rxComplete 0xF1) (collecting c0 .read .ack 6 [0xF0, 0xF4, 1, 0, 7])) =
      some (some (.ack [7])) ∧
    got State.outcome (exec (.rxComplete 0xF1) (collecting c0 .write .ack 3 [0xF0, 0xF4])) = some (some (.ack [])) ∧
    got State.outcome (exec (.rxComplete 0xF1) (collecting c0 .write .ready 3 [0xF0, 0xF6])) = some (some .ready) ∧
    got State.outcome (exec (.rxComplete 0xF1) (collecting c0 .write .nack 3 [0xF0, 0xF5])) = some (some .rejected) := by
  decide

theorem witness_CompletionByKind_check :
    ([0xF0, 0xF5, Config.checksum [0xF5]] ++ [c1.pEnd])[4 - 2]? =
      some (Config.checksum (slice ([0xF0, 0xF5, Config.checksum [0xF5]] ++ [c1.pEnd]) 1 (4 - 2))) := rfl

theorem witness_EmptyPolls :
    (seeking c0 .read .normal).busy = true ∧ (seeking c0 .read .normal).mode = some .normal ∧
    (seeking c0 .read .ping).mode = some .ping ∧ (seeking c0 .read .ping).rxSeen = false ∧
    (started c0 .read).rxSeen = true := by decide

/-- The tick before the last, and the last. -/
theorem witness_TickCountsTheBudget :
    got State.phase (exec .tick { started c0 .read with elapsed := 1 }) = some .haveOpcode ∧
    got State.phase (exec .tick { started c0 .read with elapsed := 2 }) = some .done := by decide

theorem witness_EventsAreIgnoredWhenIdle : (idle c0).phase = .off ∧ (ended .timeout).phase = .done := by decide

theorem witness_EventRowsAgreeWithTheDispatch : eventOf (.rxSizingHi 7) = some (.rx 7) := by decide

theorem witness_ReadAckFrameRecoversThePayload :
    (seeking c1 .read .normal).phase = .seeking ∧ (seeking c1 .read .normal).reqOp = some .read ∧
    ([] : List Byte).length = (0 : Half).toNat ∧ ([7, 8] : List Byte).length = (2 : Half).toNat := by decide

theorem witness_NoiseIsScannedPast :
    (∀ b ∈ ([0x55, 0xF1] : List Byte), b ≠ c0.pStart) ∧
    ({ seeking c0 .read .normal with rxSeen := true } : State).rxSeen = true := by decide

theorem witness_FrameRowsAreTheirBytes :
    decodeResponse (seeking c0 .write .normal).cfg (seeking c0 .write .normal).reqOp [0xF0, 0xF4, 0xF1] = .ok .rspAckWrite := by
  decide

/-- 256 bytes, and one less. -/
theorem witness_PageFieldsAreRead :
    256 ≤ (List.replicate 256 (0 : Byte)).length ∧ (List.replicate 255 (0 : Byte)).length < 256 := by
  rw [List.length_replicate, List.length_replicate]
  decide

/-- The version offsets of a buffer of 256 bytes. -/
theorem witness_VersionViewsAgree :
    256 ≤ (List.replicate 256 (0 : Byte)).length ∧ 2 ∈ [c0.offMapVer, c0.offFwVer] := by
  rw [List.length_replicate]
  decide

/-- Two buffers that differ at 256 only. -/
theorem witness_PageDependsOnFieldBytesOnly :
    ∀ k < 256, (List.replicate 256 (0 : Byte))[k]? = (List.replicate 256 0 ++ [0xEE])[k]? := by
  intro k hk
  rw [List.getElem?_append_left (by rw [List.length_replicate]; exact hk)]

/-- Some page is decoded from 256 bytes. -/
theorem witness_FloatFieldsKeepTheirBytes :
    ∃ p, decodePage c0 (List.replicate 256 0) = some (.page p) := by
  have h : (List.replicate 256 (0 : Byte)).length = 256 := List.length_replicate
  have hw : ∀ o, o + 4 ≤ 256 → ∃ w, wordAt (List.replicate 256 0) o = some w := by
    intro o ho
    exact ⟨_, by rw [wordAt, memRead, h, if_pos ho]; rfl⟩
  have hb : ∀ o, o < 256 → (List.replicate 256 (0 : Byte))[o]? = some 0 := fun o ho => by
    rw [List.getElem?_replicate, if_pos ho]
  obtain ⟨w1, h1⟩ := hw c0.offConc (by decide)
  obtain ⟨w2, h2⟩ := hw c0.offTemp (by decide)
  obtain ⟨w3, h3⟩ := hw c0.offHum (by decide)
  obtain ⟨w4, h4⟩ := hw c0.offId (by decide)
  rw [decodePage, h, if_neg (by decide), pageFields, hb c0.offMapVer (by decide), hb (c0.offMapVer + 1) (by decide),
    hb c0.offFwVer (by decide), hb (c0.offFwVer + 1) (by decide), hb c0.offControl (by decide),
    hb c0.offStatus (by decide), h1, h2, h3, h4]
  exact ⟨_, rfl⟩

/-- Exponent 255, 1, 254 and 0. -/
theorem witness_FloatPatternValues :
    f32Exponent 0x7F800000 = 255 ∧ f32Exponent 0x00800000 = 1 ∧ f32Exponent 0x7F000000 = 254 ∧
    f32Exponent 0x807FFFFF = 0 := by decide

/-- An outcome that is no ACK. -/
theorem witness_PageOnlyAfterAnAck : ∀ P, ExchangeOutcome.rejected ≠ .ack P := by simp

/-- An ACK of 255 bytes. -/
theorem witness_PageOnlyAfterAnAck_short :
    readResult c0 (.ack (List.replicate 255 0)) = some (.decoded .tooShort) := by
  rw [readResult, test_P1]
  rfl

/-- An ACK of 256 bytes. -/
theorem witness_PageOnlyAfterAnAck_long :
    ∃ p, readResult c0 (.ack (List.replicate 256 0)) = some (.decoded (.page p)) := by
  obtain ⟨p, hp⟩ := witness_FloatFieldsKeepTheirBytes
  exact ⟨p, by rw [readResult, hp]; rfl⟩

/-- A next state that enters DONE, one that opens an exchange and one that sets REFUSED. -/
theorem witness_whole_machine_rules :
    got State.phase (exec .xportErr (started c0 .read)) = some .done ∧
    got State.phase (exec .readPage (idle c0)) = some .seeking ∧
    got State.refused (exec .readPage (started c0 .read)) = some true ∧
    got State.outcome (exec .tick (ended .ready)) = some (some .ready) := by decide

/-- ELAPSED: cleared by RESET and by opening, kept by a refused opening, counted by TICK, kept by an empty poll. -/
theorem witness_OnlyTicksCount :
    got State.elapsed (exec .reset { started c0 .read with elapsed := 1 }) = some 0 ∧
    got State.elapsed (exec .readPage { ended .ready with elapsed := 2 }) = some 0 ∧
    got State.elapsed (exec .readPage { started c0 .read with elapsed := 1 }) = some 1 ∧
    got State.elapsed (exec (.writeBytes 0x10000 []) { ended .ready with elapsed := 2 }) = some 2 ∧
    got State.elapsed (exec .tick { started c0 .read with elapsed := 1 }) = some 2 ∧
    got State.elapsed (exec .rxNone { started c0 .read with elapsed := 1 }) = some 1 := by decide

/-- An exchange just opened meets the invariant, and is BUSY. -/
theorem witness_invariant : (seeking c0 .read .normal).Inv ∧ (seeking c0 .read .normal).busy = true := by
  refine ⟨?_, rfl⟩
  constructor <;> first | decide | simp [seeking, idle, State.reset]

/-- The same with events pending, for the run of ExchangeEndsWithinTheBudget; three ticks are its budget. -/
theorem witness_ExchangeEndsWithinTheBudget :
    ({ seeking c0 .read .normal with inputs := [.event .tick, .event .tick, .event .tick] } : State).inputs =
      [Event.tick, .tick, .tick].map .event ∧ (seeking c0 .read .normal).elapsed + ticks [.tick, .tick, .tick] = 3 ∧
    (seeking c0 .read .normal).cfg.budgetTicks = 3 := by decide

/-- LISTEN and BEGIN as the first input, opening from OFF. -/
theorem witness_SilentExchangeTimesOutExactly_opening :
    decode c0 (idle c0).context (.cmd (.listen .read .normal)) = .ok (.listen .read .normal, []) ∧
    decode c0 (idle c0).context (.cmd (.beginExchange .read 0 [] 256 .ping)) =
      .ok (.beginExchange .read 0 [] 256 .ping, []) ∧
    got (fun u => (u.phase, u.mode)) (exec (.listen .read .normal)
      { idle c0 with inputs := [Event.tick, .rxNone].map .event }) = some (.seeking, some .normal) ∧
    got (fun u => (u.phase, u.mode)) (exec (.beginExchange .read 0 [] 256 .ping)
      { idle c0 with inputs := [Event.tick].map .event }) = some (.seeking, some .ping) := by decide

/-- One TICK below the budget, and the budget. -/
theorem witness_SilentExchangeTimesOutExactly :
    (∀ e ∈ [Event.tick, .rxNone, .tick, .tick],
      e = .tick ∨ (e = .rxNone ∧ (seeking c0 .read .normal).mode = some .normal)) ∧
    ticks [.tick, .rxNone, .tick] < c0.budgetTicks ∧ c0.budgetTicks ≤ ticks [.tick, .rxNone, .tick, .tick] := by decide

/-- Two idle states that differ in what came before, and an opening command. -/
theorem witness_NoLeakBetweenExchanges :
    (ended .rejected).cfg = (idle c0).cfg ∧ (ended .rejected).inputs = (idle c0).inputs ∧
    got State.phase (exec (.listen .read .normal) (ended .rejected)) = some .seeking := by decide

end Sys2Proof.Tests
end

section
/-!
PROOFS. The statements of 00_scope.md: MemRead is the little-endian sum of the bytes it names (R15), and the derived lengths
are those of the frames (R10).
-/

namespace Sys2Proof

/-- One byte further up counts 256 times as much. -/
theorem shiftLeft_byte_succ (v k : Nat) : v <<< (8 * (k + 1)) = 256 * (v <<< (8 * k)) := by
  rw [Nat.mul_succ, Nat.shiftLeft_add, Nat.shiftLeft_eq _ 8, Nat.mul_comm]

/-- The little-endian value, in the spec's form: a sum of shifted bytes (R15). -/
theorem leNat_eq_sum (bs : List Byte) :
    leNat bs = ((List.range bs.length).map fun k => (bs[k]?.getD 0).toNat <<< (8 * k)).sum := by
  induction bs with
  | nil => rfl
  | cons b bs ih =>
    rw [leNat, ih, List.length_cons, List.range_succ_eq_map]
    simp [Function.comp_def, shiftLeft_byte_succ, List.sum_map_mul_left]

/-- A read outside the sequence has no value (R15). -/
theorem memRead_eq_none {B : List Byte} {o n : Nat} (h : B.length < o + n) : memRead B o n = none :=
  if_neg (by omega)

/-- Settles O8: a read inside B is the value of the n bytes from o on, whose byte k is B[o+k]. -/
theorem memReadIsTheLittleEndianSum : Obligations.MemReadIsTheLittleEndianSum := by
  intro B o n
  refine ⟨fun h => ?_, memRead_eq_none⟩
  have hlen : (slice B o (o + n)).length = n := by rw [slice_length]; omega
  rw [memRead_eq h, leNat_eq_sum, hlen]
  congr 2
  apply List.map_congr_left
  intro k hk
  have hlt : k < o + n - o := by rw [List.mem_range] at hk; omega
  rw [slice_getElem?, if_pos hlt]

/-- A read-ACK whose LEN is the length of its payload fits in BUF (R10, R34). -/
theorem readAckFrame_length_le_maxFrame (c : Config) {l : Half} {d : List Byte} (h : lengthAgrees l d = true) :
    (readAckFrame c l d).length ≤ c.maxFrame := by
  have hd : d.length = l.toNat := beq_iff_eq.mp h
  have hl := l.isLt
  rw [readAckFrame_length, Config.maxFrame, maxField]
  omega

/-- Settles O9: each clause is the length law of one kind of frame, and the constant of R10 beside it. -/
theorem frameLengths : Obligations.FrameLengths := fun c =>
  ⟨shortFrame_length c, rfl, fun l => readAckFrame_length c l [], rfl,
    fun _ _ => readAckFrame_length_le_maxFrame c, rfl, requestFrame_length c, fun _ => rfl⟩

end Sys2Proof
end

section
/-!
PROOFS. What an instruction can do, said once (spec 30_encoding.md R90 to R94; 41_response_classifier.md R174), and what no
instruction does: it changes no configuration (R44) and clears no REFUSED (R41).
-/

namespace Sys2Proof.Machine

/-! ### The dispatch of R174, event by event -/

section Dispatch
variable {s : State} {b : Byte}

theorem State.takeEvent_rx (h : s.busy = true) : s.takeEvent (.rx b) = s.receive b := by
  simp [State.takeEvent, h]

theorem State.takeEvent_rxNone (h : s.busy = true) : s.takeEvent .rxNone = .next s.emptyPoll := by
  simp [State.takeEvent, h]

theorem State.takeEvent_tick (h : s.busy = true) : s.takeEvent .tick = .next s.tickOnce := by
  simp [State.takeEvent, h]

theorem State.takeEvent_xportErr (h : s.busy = true) : s.takeEvent .xportErr = .next (s.raise .transportError) := by
  simp [State.takeEvent, h]

theorem State.takeEvent_rx_seeking (h : s.phase = .seeking) : s.takeEvent (.rx b) = .next (s.rxInSeeking b) := by
  rw [State.takeEvent_rx (by simp [State.busy_iff, h]), State.receive, h]

theorem State.takeEvent_rx_haveOpcode (h : s.phase = .haveOpcode) : s.takeEvent (.rx b) = (s.take b).classify b := by
  rw [State.takeEvent_rx (by simp [State.busy_iff, h]), State.receive, h]; rfl

/-- The low length byte, and any byte in SIZING but the one that makes COUNT 4 (R156; log entry 10). -/
theorem State.takeEvent_rx_sizing_low (h : s.phase = .sizing) (hc : s.count ≠ 3) :
    s.takeEvent (.rx b) = .next (s.take b) := by
  rw [State.takeEvent_rx (by simp [State.busy_iff, h]), State.receive, h]
  exact if_neg (by simpa using hc)

/-- The high length byte (R157). -/
theorem State.takeEvent_rx_sizing_high (h : s.phase = .sizing) (hc : s.count = 3) :
    s.takeEvent (.rx b) = (s.take b).revise := by
  rw [State.takeEvent_rx (by simp [State.busy_iff, h]), State.receive, h]
  exact if_pos (by simp [hc])

/-- A byte of the frame that is not its last (R158). -/
theorem State.takeEvent_rx_collecting_lt (h : s.phase = .collecting) (hc : s.count + 1 < s.expected) :
    s.takeEvent (.rx b) = .next (s.take b) := by
  rw [State.takeEvent_rx (by simp [State.busy_iff, h]), State.receive, h]
  exact (if_neg (by simpa using hc.le)).trans (if_neg (by simpa using hc.ne))

/-- The last byte of the frame (R160). -/
theorem State.takeEvent_rx_collecting_eq (h : s.phase = .collecting) (hc : s.count + 1 = s.expected) :
    s.takeEvent (.rx b) = (s.take b).complete := by
  rw [State.takeEvent_rx (by simp [State.busy_iff, h]), State.receive, h]
  exact (if_neg (by simp [hc])).trans (if_pos (by simpa using hc))

end Dispatch

/-- Each row of an event does, in every state, what the dispatch selects for that event there: the row's own rule is the
dispatch's where the row is selected, and elsewhere the row is defined by the dispatch (log entry 9). -/
theorem exec_of_eventOf {i : Instr} {e : Event} (s : State) (h : eventOf i = some e) : exec i s = s.takeEvent e := by
  cases i <;> cases h
  case rxSeeking => exact ite_eq_right_iff.mpr fun hp => (State.takeEvent_rx_seeking hp).symm
  case rxHaveOpcode => exact ite_eq_right_iff.mpr fun hp => (State.takeEvent_rx_haveOpcode hp).symm
  case rxSizingLo =>
    exact ite_eq_right_iff.mpr fun ⟨hp, hc⟩ => (State.takeEvent_rx_sizing_low hp (by simp [hc])).symm
  case rxSizingHi => exact ite_eq_right_iff.mpr fun ⟨hp, hc⟩ => (State.takeEvent_rx_sizing_high hp hc).symm
  case rxCollecting => exact ite_eq_right_iff.mpr fun ⟨hp, hc⟩ => (State.takeEvent_rx_collecting_lt hp hc).symm
  case rxComplete => exact ite_eq_right_iff.mpr fun ⟨hp, hc⟩ => (State.takeEvent_rx_collecting_eq hp hc).symm
  case rxNone =>
    refine ite_eq_right_iff.mpr fun ⟨hb, hf⟩ => ?_
    rw [State.takeEvent_rxNone hb, State.emptyPoll, if_neg hf]
  case rxNonePing =>
    refine ite_eq_right_iff.mpr fun ⟨hb, hf⟩ => ?_
    rw [State.takeEvent_rxNone hb, State.emptyPoll, if_pos hf]
  case tick => exact ite_eq_right_iff.mpr fun hb => (State.takeEvent_tick hb).symm
  case xportErr => exact ite_eq_right_iff.mpr fun hb => (State.takeEvent_xportErr hb).symm
  case eventIdle =>
    exact ite_eq_left_iff.mpr fun hb => (State.takeEvent_idle e (by simpa using hb)).symm

/-! ### The rows that cannot be refused or fault -/

/-- A request frame's operands are those of a BUILD that R114 does not refuse. -/
theorem State.buildOnEnc_read (s : State) (a l : Half) :
    ∃ F, s.buildOnEnc .read a.toNat [] l.toNat = s.emit (.encFrame F) := by
  have ha := a.isLt
  have hl := l.isLt
  have hr : buildRefused .read a.toNat [] l.toNat = false := by
    rw [buildRefused_eq_false, maxField]
    exact ⟨fun _ => rfl, by simp, by omega, by omega⟩
  rcases s.buildOnEnc_cases .read a.toNat [] l.toNat with ⟨F, -, h⟩ | ⟨hn, -⟩
  · exact ⟨F, h⟩
  · simp [buildFrame, hr] at hn

/-- A 4-byte field inside the buffer has a value (R15). -/
theorem wordAt_some {B : List Byte} {o : Nat} (h : o + 4 ≤ B.length) : ∃ w, wordAt B o = some w :=
  ⟨_, by rw [wordAt, memRead_eq h]; rfl⟩

/-- Every field of a page has a value: WF2 places them within 256 bytes (R201). -/
theorem pageFields_some (c : Config) {B : List Byte} (h : pageSize ≤ B.length) : ∃ p, pageFields c B = some p := by
  obtain ⟨h1, h2, h3, h4, h5, h6, h7⟩ := c.fields_in_page
  have hs := c.status_offset
  have hB : 256 ≤ B.length := h
  have byte : ∀ o < 256, ∃ b, B[o]? = some b := fun o ho => ⟨_, List.getElem?_eq_getElem (by omega)⟩
  obtain ⟨_, e1⟩ := byte c.offMapVer (by omega)
  obtain ⟨_, e2⟩ := byte (c.offMapVer + 1) (by omega)
  obtain ⟨_, e3⟩ := byte c.offFwVer (by omega)
  obtain ⟨_, e4⟩ := byte (c.offFwVer + 1) (by omega)
  obtain ⟨_, e5⟩ := byte c.offControl (by omega)
  obtain ⟨_, e6⟩ := byte c.offStatus (by omega)
  obtain ⟨_, e7⟩ := wordAt_some (h4.trans hB)
  obtain ⟨_, e8⟩ := wordAt_some (h5.trans hB)
  obtain ⟨_, e9⟩ := wordAt_some (h6.trans hB)
  obtain ⟨_, e10⟩ := wordAt_some (h7.trans hB)
  exact ⟨_, by simp only [pageFields, e1, e2, e3, e4, e5, e6, e7, e8, e9, e10]; rfl⟩

/-- DECODE_PAGE always has a result (R200, R202). -/
theorem decodePage_some (c : Config) (B : List Byte) : ∃ r, decodePage c B = some r := by
  unfold decodePage
  split
  · exact ⟨_, rfl⟩
  · obtain ⟨p, hp⟩ := pageFields_some c (B := B) (by omega)
    exact ⟨.page p, by rw [hp]; rfl⟩

/-! ### Every row -/

/-- What the meaning of i answers in s: one constructor per shape of answer, with the instructions and the states that have
it. -/
inductive Effect (i : Instr) (s : State) : Answer → Prop
  /-- The row of an event is the dispatch of R174. -/
  | event (e : Event) (he : eventOf i = some e) : Effect i s (s.takeEvent e)
  /-- A response row is the delivery of its frame (log entry 8). -/
  | delivery (bs : List Byte) (he : eventOf i = none) (ho : opensExchange i = false) (hr : i ≠ .reset) :
      Effect i s (s.deliver bs)
  /-- A combinational row puts its result on ENC or PAGE (R90). -/
  | output (x : Emit) (he : eventOf i = none) (ho : opensExchange i = false) (hr : i ≠ .reset) (hc : x ≠ .close)
      (ht : ∀ F, x ≠ .tx F) : Effect i s (.next (s.emit x))
  /-- BUILD (R114), REQ_WRITE, which is a BUILD (log entry 8), and the opening commands (R142) can be refused. -/
  | refusal (hi : opensExchange i = true ∨ (∃ op A d L, i = .build op A d L) ∨ ∃ a l d, i = .reqWrite a l d) :
      Effect i s (.next s.refuse)
  /-- LISTEN opens an exchange (R141). -/
  | listening (op : Op) (m : Mode) (hb : s.busy = false) (hi : i = .listen op m) :
      Effect i s (.next (s.openExchange op m))
  /-- BEGIN and the pseudo-commands open an exchange and send a frame (R94, R140). -/
  | sending (op : Op) (m : Mode) (F : Frame) (hb : s.busy = false) (ho : opensExchange i = true)
      (hi : ∀ op m, i ≠ .listen op m) : Effect i s (.next ((s.openExchange op m).emit (.tx F)))
  /-- RESET (R260). -/
  | reset (hi : i = .reset) : Effect i s (.next s.resetRegisters)

/-- A BUILD, as a command or as a request frame. -/
theorem Effect.of_buildOnEnc {i : Instr} (s : State) (op : Op) (a : Nat) (d : List Byte) (l : Nat)
    (hi : (∃ op A d L, i = .build op A d L) ∨ ∃ a l d, i = .reqWrite a l d) :
    Effect i s (.next (s.buildOnEnc op a d l)) := by
  rcases s.buildOnEnc_cases op a d l with ⟨F, -, h⟩ | ⟨-, h⟩ <;> rw [h]
  · rcases hi with ⟨_, _, _, _, rfl⟩ | ⟨_, _, _, rfl⟩ <;> exact .output _ rfl rfl nofun nofun nofun
  · exact .refusal (.inr hi)

/-- A BEGIN, as a command or as a pseudo-command. -/
theorem Effect.of_beginWith {i : Instr} (s : State) (op : Op) (a : Nat) (d : List Byte) (l : Nat) (m : Mode)
    (ho : opensExchange i = true) (hi : ∀ op m, i ≠ .listen op m) : Effect i s (.next (s.beginWith op a d l m)) := by
  rcases s.beginWith_cases op a d l m with ⟨-, h⟩ | ⟨hb, F, -, h⟩ <;> rw [h]
  · exact .refusal (.inl ho)
  · exact .sending op m F hb ho hi

/-- The rows that are no event's. -/
theorem exec_effect_of_no_event {i : Instr} (s : State) (he : eventOf i = none) : Effect i s (exec i s) := by
  cases i <;> cases he
  case reqRead a l =>
    obtain ⟨F, h⟩ := s.buildOnEnc_read a l
    rw [exec, execReqRead, h]
    exact .output _ rfl rfl nofun nofun nofun
  case reqWrite => exact .of_buildOnEnc s _ _ _ _ (.inr ⟨_, _, _, rfl⟩)
  case rspAckRead => exact .delivery _ rfl rfl nofun
  case rspAckWrite => exact .delivery _ rfl rfl nofun
  case rspNack => exact .delivery _ rfl rfl nofun
  case rspReady => exact .delivery _ rfl rfl nofun
  case rspBadOpcode => exact .delivery _ rfl rfl nofun
  case build => exact .of_buildOnEnc s _ _ _ _ (.inl ⟨_, _, _, _, rfl⟩)
  case encodeControl => exact .output _ rfl rfl nofun nofun nofun
  case beginExchange => exact .of_beginWith s _ _ _ _ _ rfl nofun
  case listen op m =>
    rw [exec, execListen]
    rcases s.listenWith_cases op m with ⟨-, h⟩ | ⟨hb, h⟩ <;> rw [h]
    · exact .refusal (.inl rfl)
    · exact .listening op m hb rfl
  case decodePage B =>
    obtain ⟨r, h⟩ := decodePage_some s.cfg B
    rw [exec, execDecodePage, h]
    exact .output _ rfl rfl nofun nofun nofun
  case reset => exact .reset rfl
  case readPage => exact .of_beginWith s _ _ _ _ _ rfl nofun
  case writeBytes => exact .of_beginWith s _ _ _ _ _ rfl nofun
  case writeControl => exact .of_beginWith s _ _ _ _ _ rfl nofun
  case probe => exact .of_beginWith s _ _ _ _ _ rfl nofun

/-- Every row of the opcode table has one of these effects. -/
theorem exec_effect (i : Instr) (s : State) : Effect i s (exec i s) := by
  cases he : eventOf i with
  | none => exact exec_effect_of_no_event s he
  | some e =>
    rw [exec_of_eventOf s he]
    exact .event e he

/-! ### What no row changes -/

/-- An event keeps the configuration and REFUSED. -/
theorem State.takeEvent_cfg_refused {s t : State} {e : Event} (h : s.takeEvent e = .next t) :
    t.cfg = s.cfg ∧ t.refused = s.refused := by
  rcases State.takeEvent_shape h with ⟨-, rfl⟩ | ⟨-, u, hu, rfl | ⟨x, rfl⟩⟩
  · exact ⟨rfl, rfl⟩
  · exact ⟨hu.cfg, hu.refused⟩
  · exact ⟨hu.cfg, hu.refused⟩

/-- A delivery keeps the configuration and REFUSED. -/
theorem State.deliver_cfg_refused {s t : State} {bs : List Byte} (h : s.deliver bs = .next t) :
    t.cfg = s.cfg ∧ t.refused = s.refused := by
  refine State.deliver_induction (R := fun s t => t.cfg = s.cfg ∧ t.refused = s.refused) (fun _ => ⟨rfl, rfl⟩) ?_ h
  rintro s u t b hu ⟨hc, hr⟩
  obtain ⟨huc, hur⟩ := State.takeEvent_cfg_refused hu
  exact ⟨hc.trans huc, hr.trans hur⟩

/-- A row keeps the configuration, and REFUSED too unless it is a refusal. -/
theorem exec_cfg_refused {i : Instr} {s t : State} (h : exec i s = .next t) :
    t.cfg = s.cfg ∧
    (t.refused = s.refused ∨
      t = s.refuse ∧ (opensExchange i = true ∨ (∃ op A d L, i = .build op A d L) ∨ ∃ a l d, i = .reqWrite a l d)) := by
  have hE := exec_effect i s
  rw [h] at hE
  generalize ha : (Host.Outcome.next t : Answer) = a at hE
  cases hE with
  | event e _ => exact (State.takeEvent_cfg_refused ha.symm).imp_right .inl
  | delivery bs _ _ _ => exact (State.deliver_cfg_refused ha.symm).imp_right .inl
  | output x _ _ _ _ _ => cases ha; exact ⟨rfl, .inl rfl⟩
  | refusal hi => cases ha; exact ⟨rfl, .inr ⟨rfl, hi⟩⟩
  | listening op m _ _ => cases ha; exact ⟨rfl, .inl rfl⟩
  | sending op m F _ _ _ => cases ha; exact ⟨rfl, .inl rfl⟩
  | reset _ => cases ha; exact ⟨rfl, .inl rfl⟩

/-- Settles O52: no row's effect writes the configuration. -/
theorem configurationIsFixed : Obligations.ConfigurationIsFixed :=
  fun _ _ _ h => (exec_cfg_refused h).1

/-- Settles O53: of the effects only a refusal writes REFUSED, and it sets it. -/
theorem refusedIsSticky : Obligations.RefusedIsSticky := by
  intro i s t h
  obtain ⟨-, hkeep | ⟨rfl, hi⟩⟩ := exec_cfg_refused h
  · exact ⟨fun hs => hkeep.trans hs, fun hs ht => by simp [hkeep, hs] at ht⟩
  · exact ⟨fun _ => rfl, fun _ _ => ⟨rfl, hi⟩⟩

end Sys2Proof.Machine
end

section
/-!
PROOFS. The invariant of spec 10_state.md section 5 (R46): it holds at reset, every step keeps it, and from a state that has
it no step faults. What a meaning does is proved together with what it answers: from a state of the invariant every row
answers a next state, and that state has the invariant.
-/

namespace Sys2Proof.Machine

/-! ### The invariant and the shared operations -/

/-- The invariant speaks of the configuration and the exchange registers only. -/
theorem State.Inv.of_regs {s t : State} (h : s.Inv) (hc : t.cfg = s.cfg) (hr : t.exchangeRegs = s.exchangeRegs) :
    t.Inv := by
  obtain ⟨cfg, phase, reqOp, rxKind, mode, buf, count, expected, rxSeen, elapsed, outcome, refused, inputs, emitted⟩ := s
  obtain ⟨cfg', phase', reqOp', rxKind', mode', buf', count', expected', rxSeen', elapsed', outcome', _, _, _⟩ := t
  simp only [State.exchangeRegs, ExchangeRegs.mk.injEq] at hr
  obtain ⟨rfl, rfl, rfl, rfl, rfl, rfl, rfl, rfl, rfl, rfl⟩ := hr
  cases hc
  exact { h with offAtReset := fun hp => { h.offAtReset hp with } }

/-- The registers of R45 meet the invariant. -/
theorem State.Inv.resetRegisters (s : State) : s.resetRegisters.Inv where
  countIsLength := rfl
  seekingEmpty := nofun
  startBuffered := nofun
  sizing := nofun
  collecting := nofun
  withinBudget := nofun
  doneIffOutcome := by simp
  offAtReset _ := ⟨rfl, rfl, rfl, rfl, rfl, rfl, rfl, rfl, rfl⟩
  latched := nofun
  noKindYet := by simp
  opcodeHeld := by simp
  expectedFits := nofun
  unseenSeeks := nofun
  capacity := ⟨Nat.zero_le _, Nat.zero_le _, Nat.zero_le _⟩
  ackFits := nofun
  neverOverLength := nofun

/-- A newly opened exchange meets the invariant (R140, R141). -/
theorem State.Inv.openExchange (s : State) (op : Op) (m : Mode) : (s.openExchange op m).Inv where
  countIsLength := rfl
  seekingEmpty _ := rfl
  startBuffered := nofun
  sizing := nofun
  collecting := nofun
  withinBudget _ := s.cfg.budget_pos
  doneIffOutcome := by simp
  offAtReset := nofun
  latched := by simp
  noKindYet _ := ⟨rfl, rfl⟩
  opcodeHeld := by simp
  expectedFits := nofun
  unseenSeeks _ _ := rfl
  capacity := ⟨Nat.zero_le _, Nat.zero_le _, Nat.zero_le _⟩
  ackFits := nofun
  neverOverLength := nofun

/-- The outcomes that the invariant admits: an ACK's payload has at most 0xFFFF bytes, and none is OVER_LENGTH. -/
def ExchangeOutcome.Admissible (x : ExchangeOutcome) : Prop :=
  (∀ P, x = .ack P → P.length ≤ maxField) ∧ x ≠ .malformed .overLength

/-- Entry into DONE meets the invariant wherever the counts do. -/
theorem State.Inv.raise {u : State} {x : ExchangeOutcome} (hl : u.count = u.buf.length)
    (hcap : u.count ≤ u.cfg.maxFrame ∧ u.expected ≤ u.cfg.maxFrame ∧ u.elapsed ≤ u.cfg.budgetTicks)
    (hx : x.Admissible) : (u.raise x).Inv where
  countIsLength := hl
  seekingEmpty := nofun
  startBuffered := nofun
  sizing := nofun
  collecting := nofun
  withinBudget := nofun
  doneIffOutcome := by simp
  offAtReset := nofun
  latched := nofun
  noKindYet := by simp
  opcodeHeld := by simp
  expectedFits := nofun
  unseenSeeks := nofun
  capacity := hcap
  ackFits P hP := hx.1 P (Option.some.inj hP)
  neverOverLength hP := hx.2 (Option.some.inj hP)

/-- An active exchange has no outcome yet (I7). -/
theorem State.Inv.outcome_none {s : State} (h : s.Inv) (hb : s.busy = true) : s.outcome = none := by
  by_contra ho
  simp [State.busy, h.doneIffOutcome.mpr ho, Phase.idle] at hb

/-! ### Receiving a frame -/

/-- What the invariant says of the frame being received, by the phase. -/
structure State.Receiving (u : State) : Prop where
  countIsLength : u.count = u.buf.length
  seeking : u.phase = .seeking → u.count = 0 ∧ u.rxKind = none ∧ u.expected = 0
  haveOpcode : u.phase = .haveOpcode →
    u.count = 1 ∧ u.buf[0]? = some u.cfg.pStart ∧ u.rxKind = none ∧ u.expected = 0
  sizing : u.phase = .sizing →
    u.reqOp = some .read ∧ u.rxKind = some .ack ∧ (u.count = 2 ∨ u.count = 3) ∧ u.expected = u.cfg.overhead ∧
      u.OpcodeHeld
  collecting : u.phase = .collecting →
    2 ≤ u.count ∧ u.count < u.expected ∧ u.expected ≤ u.cfg.maxFrame ∧ u.OpcodeHeld ∧ u.ExpectedFits
  seen : u.rxSeen = true

/-- In an active phase BUF and EXPECTED keep within the longest frame. -/
theorem State.Receiving.fits {u : State} (h : u.Receiving) (hb : u.busy = true) :
    u.count ≤ u.cfg.maxFrame ∧ u.expected ≤ u.cfg.maxFrame := by
  obtain ⟨-, -, h5, -, -, -, hmax⟩ := u.cfg.lengths
  rcases u.busy_iff.mp hb with hp | hp | hp | hp
  · have := h.seeking hp; omega
  · have := h.haveOpcode hp; omega
  · have := h.sizing hp; omega
  · have := h.collecting hp; omega

/-- An event that leaves an exchange active advances it. -/
theorem State.advances_of_busy {s u : State} {e : Event} (hr : s.takeEvent e = .next u) (hb : s.busy = true)
    (hbu : u.busy = true) : s.Advances u e := by
  rcases State.takeEvent_shape hr with ⟨hn, -⟩ | ⟨-, u, ha, rfl | ⟨x, rfl⟩⟩
  · simp [hb] at hn
  · exact ha
  · simp [State.busy, Phase.idle] at hbu

/-- A byte that leaves an exchange active keeps the invariant if it leaves a well-formed beginning of a frame: the
frame's part is `Receiving`, and nothing else of what the invariant says changes. -/
theorem State.Inv.receive {s u : State} {b : Byte} (h : s.Inv) (hb : s.busy = true)
    (hr : s.takeEvent (.rx b) = .next u) (hbu : u.busy = true) (hu : u.Receiving) : u.Inv := by
  have ha := State.advances_of_busy hr hb hbu
  have ho : u.outcome = none := ha.outcome.trans (h.outcome_none hb)
  have he : u.elapsed = s.elapsed := ha.elapsed
  have hbusy := u.busy_iff.mp hbu
  have hlt : u.elapsed < u.cfg.budgetTicks := by rw [he, ha.cfg]; exact h.withinBudget hb
  exact {
    countIsLength := hu.countIsLength
    seekingEmpty := fun hp => (hu.seeking hp).1
    startBuffered := fun hp => have ⟨hc, hs, _⟩ := hu.haveOpcode hp; ⟨hc, hs⟩
    sizing := fun hp => have ⟨ho, hk, hc, he, _⟩ := hu.sizing hp; ⟨ho, hk, hc, he⟩
    collecting := fun hp => have ⟨h2, hc, he, _⟩ := hu.collecting hp; ⟨h2, hc, he⟩
    withinBudget := fun _ => hlt
    doneIffOutcome := by rcases hbusy with hp | hp | hp | hp <;> simp [hp, ho]
    offAtReset := fun hp => by simp [hp] at hbusy
    latched := fun _ => by rw [ha.reqOp, ha.mode]; exact h.latched hb
    noKindYet := fun
      | .inl hp => (hu.seeking hp).2
      | .inr hp => (hu.haveOpcode hp).2.2
    opcodeHeld := fun
      | .inl hp => have ⟨_, _, _, _, hk⟩ := hu.sizing hp; hk
      | .inr hp => have ⟨_, _, _, hk, _⟩ := hu.collecting hp; hk
    expectedFits := fun hp => have ⟨_, _, _, _, hf⟩ := hu.collecting hp; hf
    unseenSeeks := fun _ hs => by simp [hu.seen] at hs
    capacity := have ⟨hc, hx⟩ := hu.fits hbu; ⟨hc, hx, hlt.le⟩
    ackFits := fun P hP => by simp [ho] at hP
    neverOverLength := by simp [ho] }

/-- What the invariant says of a meaning's answer: a next state, and one that meets it. -/
def Answer.Safe (a : Answer) : Prop := ∃ t, a = .next t ∧ t.Inv

section Rx
variable {s : State} {b : Byte}

/-- A byte keeps an accepted opcode in BUF. -/
theorem State.OpcodeHeld.take (h : s.OpcodeHeld) : (s.take b).OpcodeHeld := by
  obtain ⟨k, hk, h0, h1⟩ := h
  have hlen := (List.getElem?_eq_some_iff.mp h1).1
  exact ⟨k, hk, (List.getElem?_append_left (Nat.zero_lt_of_lt hlen)).trans h0, (List.getElem?_append_left hlen).trans h1⟩

/-- EXPECTED for an ACK to a Read (R157). -/
theorem State.expectedFits_read (hk : s.rxKind = some .ack ∧ s.reqOp = some .read) :
    s.ExpectedFits ↔ ∃ L, memRead s.buf 2 2 = some L ∧ s.expected = s.cfg.overhead + L := by
  rw [State.ExpectedFits, if_pos hk]

/-- EXPECTED for every other response (R153 to R155). -/
theorem State.expectedFits_short (hk : ¬ (s.rxKind = some .ack ∧ s.reqOp = some .read)) :
    s.ExpectedFits ↔ s.expected = s.cfg.shortLen := by
  rw [State.ExpectedFits, if_neg hk]

/-- A byte after the length field leaves the accepted frame's length as it was. -/
theorem State.ExpectedFits.take (h : s.ExpectedFits) : (s.take b).ExpectedFits := by
  by_cases hk : s.rxKind = some .ack ∧ s.reqOp = some .read
  · obtain ⟨L, hL, he⟩ := (State.expectedFits_read hk).mp h
    exact (State.expectedFits_read (s := s.take b) hk).mpr ⟨L, (memRead_append (memRead_some hL).1).trans hL, he⟩
  · exact (State.expectedFits_short (s := s.take b) hk).mpr ((State.expectedFits_short hk).mp h)

/-! #### SEEKING -/

theorem State.rxInSeeking_receiving (h : s.Inv) (hp : s.phase = .seeking) : (s.rxInSeeking b).Receiving := by
  unfold State.rxInSeeking
  split
  · next hb =>
    exact {
      countIsLength := rfl
      seeking := nofun
      haveOpcode := fun _ => ⟨rfl, congrArg some hb, h.noKindYet (.inl hp)⟩
      sizing := nofun
      collecting := nofun
      seen := rfl }
  · exact {
      countIsLength := h.countIsLength
      seeking := fun _ => ⟨h.seekingEmpty hp, h.noKindYet (.inl hp)⟩
      haveOpcode := by simp [hp]
      sizing := by simp [hp]
      collecting := by simp [hp]
      seen := rfl }

theorem State.rxInSeeking_busy (hp : s.phase = .seeking) : (s.rxInSeeking b).busy = true := by
  unfold State.rxInSeeking
  split <;> simp [State.busy_iff, hp]

theorem State.Inv.rx_seeking (h : s.Inv) (hp : s.phase = .seeking) : (s.takeEvent (.rx b)).Safe :=
  have hr := State.takeEvent_rx_seeking hp
  ⟨_, hr, h.receive (State.busy_of_seeking hp) hr (State.rxInSeeking_busy hp) (State.rxInSeeking_receiving h hp)⟩

/-! #### HAVE_OPCODE -/

/-- What the opcode does: an ACK to a Read opens SIZING, any other response opcode COLLECTING with the short length, and
any other byte ends the exchange (R151 to R155). -/
theorem State.classify_cases (ho : s.reqOp ≠ none) :
    (b = opcodeOf s.cfg .ack ∧ s.reqOp = some .read ∧ s.classify b = .next (s.accept .ack s.cfg.overhead .sizing)) ∨
    (∃ k, b = opcodeOf s.cfg k ∧ ¬ (k = .ack ∧ s.reqOp = some .read) ∧
      s.classify b = .next (s.accept k s.cfg.shortLen .collecting)) ∨
    s.classify b = .next (s.raise (.malformed .badOpcode)) := by
  unfold State.classify
  by_cases ha : b = s.cfg.pOpAck
  · cases hq : s.reqOp with
    | none => exact absurd hq ho
    | some op =>
      cases op with
      | read => exact .inl ⟨ha, rfl, if_pos ha⟩
      | write => exact .inr (.inl ⟨.ack, ha, nofun, if_pos ha⟩)
  · rw [if_neg ha]
    by_cases hn : b = s.cfg.pOpNack
    · exact .inr (.inl ⟨.nack, hn, nofun, if_pos hn⟩)
    · rw [if_neg hn]
      by_cases hy : b = s.cfg.pOpReady
      · exact .inr (.inl ⟨.ready, hy, nofun, if_pos hy⟩)
      · exact .inr (.inr (if_neg hy))

/-- After START and an accepted opcode, BUF is those two bytes. -/
theorem State.Inv.accept_opcodeHeld (h : s.Inv) (hp : s.phase = .haveOpcode) {k : RxKind}
    (hb : b = opcodeOf s.cfg k) (n : Nat) (p : Phase) : ((s.take b).accept k n p).OpcodeHeld := by
  obtain ⟨hc, hs⟩ := h.startBuffered hp
  obtain ⟨x, hx⟩ := List.length_eq_one_iff.mp (h.countIsLength ▸ hc)
  refine ⟨k, rfl, ?_, ?_⟩
  · simpa [hx] using hs
  · simp [hx, hb]

/-- An ACK to a Read: the length field is still to come (R152). -/
theorem State.Inv.accept_sizing (h : s.Inv) (hp : s.phase = .haveOpcode) (hb : b = opcodeOf s.cfg .ack)
    (ho : s.reqOp = some .read) : ((s.take b).accept .ack s.cfg.overhead .sizing).Receiving where
  countIsLength := by simp [h.countIsLength]
  seeking := nofun
  haveOpcode := nofun
  sizing _ := ⟨ho, rfl, .inl (by simp [(h.startBuffered hp).1]), rfl, h.accept_opcodeHeld hp hb _ _⟩
  collecting := nofun
  seen := rfl

/-- Any other accepted opcode: the frame's length is known (R153 to R155). -/
theorem State.Inv.accept_collecting (h : s.Inv) (hp : s.phase = .haveOpcode) {k : RxKind} (hb : b = opcodeOf s.cfg k)
    (hk : ¬ (k = .ack ∧ s.reqOp = some .read)) :
    ((s.take b).accept k s.cfg.shortLen .collecting).Receiving where
  countIsLength := by simp [h.countIsLength]
  seeking := nofun
  haveOpcode := nofun
  sizing := nofun
  collecting _ := by
    have hc := (h.startBuffered hp).1
    obtain ⟨h3, -, -, -, -, hmax, -⟩ := s.cfg.lengths
    refine ⟨?_, ?_, hmax, h.accept_opcodeHeld hp hb _ _, ?_⟩
    · simp [hc]
    · simp only [State.accept_count, State.take_count, State.accept_expected]; omega
    · exact (State.expectedFits_short (by simpa using hk)).mpr rfl
  seen := rfl

theorem State.Inv.rx_haveOpcode (h : s.Inv) (hp : s.phase = .haveOpcode) : (s.takeEvent (.rx b)).Safe := by
  have hb : s.busy = true := by simp [State.busy_iff, hp]
  have hr := State.takeEvent_rx_haveOpcode (b := b) hp
  rcases (s.take b).classify_cases (b := b) (h.latched hb).1 with ⟨hk, ho, hc⟩ | ⟨k, hk, ho, hc⟩ | hc <;> rw [hc] at hr
  · exact ⟨_, hr, h.receive hb hr rfl (h.accept_sizing hp hk ho)⟩
  · exact ⟨_, hr, h.receive hb hr rfl (h.accept_collecting hp hk ho)⟩
  · refine ⟨_, hr, .raise (by simp [h.countIsLength]) ?_ ⟨nofun, nofun⟩⟩
    obtain ⟨-, he, ht⟩ := h.capacity
    refine ⟨?_, he, ht⟩
    have hc := (h.startBuffered hp).1
    have := s.cfg.lengths
    simp only [State.take_count, State.take_cfg]
    omega

/-! #### SIZING -/

theorem revisedLength_eq (c : Config) (L : Nat) : revisedLength c L = c.overhead + L := by
  unfold revisedLength
  split <;> omega

/-- The low length byte keeps the frame well-formed (R156). -/
theorem State.Inv.take_sizing (h : s.Inv) (hp : s.phase = .sizing) (hc : s.count = 2) : (s.take b).Receiving where
  countIsLength := by simp [h.countIsLength]
  seeking := by simp [hp]
  haveOpcode := by simp [hp]
  sizing _ :=
    have ⟨ho, hk, _, he⟩ := h.sizing hp
    ⟨ho, hk, .inr (by simp [hc]), he, (h.opcodeHeld (.inl hp)).take⟩
  collecting := by simp [hp]
  seen := rfl

/-- The high length byte: EXPECTED becomes the length of the frame, and it fits in BUF (R157). -/
theorem State.Inv.revise_sizing (h : s.Inv) (hp : s.phase = .sizing) (hc : s.count = 3) {L : Nat}
    (hL : memRead (s.take b).buf 2 2 = some L) :
    ({ s.take b with expected := revisedLength s.cfg L, phase := .collecting } : State).Receiving where
  countIsLength := by simp [h.countIsLength]
  seeking := nofun
  haveOpcode := nofun
  sizing := nofun
  collecting _ := by
    obtain ⟨ho, hk, -, -⟩ := h.sizing hp
    have hlt := (memRead_some hL).2.2
    have h5 := s.cfg.lengths.2.2.1
    refine ⟨?_, ?_, ?_, (h.opcodeHeld (.inl hp)).take, ?_⟩
    · simp [hc]
    · simp only [State.take_count, revisedLength_eq]; omega
    · simp only [revisedLength_eq, State.take_cfg, Config.maxFrame, maxField]; omega
    · refine (State.expectedFits_read ?_).mpr ⟨L, hL, revisedLength_eq _ _⟩
      exact ⟨hk, ho⟩
  seen := rfl

theorem State.Inv.rx_sizing (h : s.Inv) (hp : s.phase = .sizing) : (s.takeEvent (.rx b)).Safe := by
  have hb : s.busy = true := by simp [State.busy_iff, hp]
  obtain ⟨-, -, hc | hc, -⟩ := h.sizing hp
  · have hr := State.takeEvent_rx_sizing_low (b := b) hp (by omega)
    exact ⟨_, hr, h.receive hb hr hb (h.take_sizing hp hc)⟩
  · have hlen : 2 + 2 ≤ (s.take b).buf.length := by simp [← h.countIsLength, hc]
    have hL := memRead_eq hlen
    have hr := State.takeEvent_rx_sizing_high (b := b) hp hc
    rw [State.revise, hL] at hr
    exact ⟨_, hr, h.receive hb hr rfl (h.revise_sizing hp hc hL)⟩

/-! #### COLLECTING -/

/-- A byte that is not the frame's last keeps it well-formed (R158). -/
theorem State.Inv.take_collecting (h : s.Inv) (hp : s.phase = .collecting) (hc : s.count + 1 < s.expected) :
    (s.take b).Receiving where
  countIsLength := by simp [h.countIsLength]
  seeking := by simp [hp]
  haveOpcode := by simp [hp]
  sizing := by simp [hp]
  collecting _ :=
    have ⟨h2, _, he⟩ := h.collecting hp
    ⟨h2.trans (Nat.le_succ _), hc, he, (h.opcodeHeld (.inr hp)).take, (h.expectedFits hp).take⟩
  seen := rfl

/-- The result of a frame with an accepted opcode is an admissible outcome: an ACK's payload is as long as the 16-bit
length field says (R163 to R166). -/
theorem State.conclude_raises (ho : s.reqOp ≠ none) (hk : s.OpcodeHeld) (hf : s.ExpectedFits) :
    ∃ x, s.conclude = .next (s.raise x) ∧ x.Admissible := by
  obtain ⟨k, hk, -, -⟩ := hk
  unfold State.conclude
  cases k with
  | nack => exact ⟨.rejected, by rw [hk], nofun, nofun⟩
  | ready => exact ⟨.ready, by rw [hk], nofun, nofun⟩
  | ack =>
    cases hq : s.reqOp with
    | none => exact absurd hq ho
    | some op =>
      cases op with
      | write => exact ⟨.ack [], by rw [hk], by rintro _ ⟨⟩; exact Nat.zero_le _, nofun⟩
      | read =>
        obtain ⟨L, hL, -⟩ := (State.expectedFits_read ⟨hk, hq⟩).mp hf
        have hlt := (memRead_some hL).2.2
        refine ⟨.ack (slice s.buf 4 (4 + L)), by rw [hk, hL], ?_, nofun⟩
        rintro _ ⟨⟩
        rw [slice_length, maxField]
        omega

/-- A complete frame ends the exchange with an admissible outcome (R160 to R166). -/
theorem State.complete_raises (ho : s.reqOp ≠ none) (hk : s.OpcodeHeld) (hf : s.ExpectedFits) :
    ∃ x, s.complete = .next (s.raise x) ∧ x.Admissible := by
  unfold State.complete
  split
  · exact ⟨_, rfl, nofun, nofun⟩
  · split
    · exact ⟨_, rfl, nofun, nofun⟩
    · exact State.conclude_raises ho hk hf

theorem State.Inv.rx_collecting (h : s.Inv) (hp : s.phase = .collecting) : (s.takeEvent (.rx b)).Safe := by
  have hb : s.busy = true := by simp [State.busy_iff, hp]
  obtain ⟨-, hlt, hmax⟩ := h.collecting hp
  rcases Nat.lt_or_eq_of_le (Nat.succ_le_of_lt hlt) with hc | hc
  · have hr := State.takeEvent_rx_collecting_lt (b := b) hp hc
    exact ⟨_, hr, h.receive hb hr hb (h.take_collecting hp hc)⟩
  · obtain ⟨x, hx, hadm⟩ := State.complete_raises (s := s.take b) (h.latched hb).1 (h.opcodeHeld (.inr hp)).take
      (h.expectedFits hp).take
    refine ⟨_, (State.takeEvent_rx_collecting_eq hp hc).trans hx, .raise (by simp [h.countIsLength]) ?_ hadm⟩
    exact ⟨hc.le.trans hmax, h.capacity.2⟩

end Rx

/-! ### Every event, every row, every step -/

/-- TICK within the budget (R172). -/
theorem State.Inv.tickOnce {s : State} (h : s.Inv) (hb : s.busy = true) : s.tickOnce.Inv := by
  have hlt := h.withinBudget hb
  obtain ⟨hc, hx, -⟩ := h.capacity
  have hcap : s.count ≤ s.cfg.maxFrame ∧ s.expected ≤ s.cfg.maxFrame ∧ s.elapsed + 1 ≤ s.cfg.budgetTicks :=
    ⟨hc, hx, hlt⟩
  unfold State.tickOnce
  split
  · exact .raise h.countIsLength hcap ⟨nofun, nofun⟩
  · next hne =>
    exact { h with
      withinBudget := fun _ => lt_of_le_of_ne hlt hne
      offAtReset := fun hp => by simp [State.busy_iff, show s.phase = .off from hp] at hb
      capacity := hcap }

/-- From a state of the invariant an event answers a next state of the invariant. -/
theorem State.Inv.takeEvent {s : State} (h : s.Inv) (e : Event) : (s.takeEvent e).Safe := by
  by_cases hb : s.busy = true
  · cases e with
    | rx b =>
      rcases s.busy_iff.mp hb with hp | hp | hp | hp
      · exact h.rx_seeking hp
      · exact h.rx_haveOpcode hp
      · exact h.rx_sizing hp
      · exact h.rx_collecting hp
    | rxNone =>
      refine ⟨_, State.takeEvent_rxNone hb, ?_⟩
      unfold State.emptyPoll
      split
      · exact .raise h.countIsLength h.capacity ⟨nofun, nofun⟩
      · exact h
    | tick => exact ⟨_, State.takeEvent_tick hb, h.tickOnce hb⟩
    | xportErr => exact ⟨_, State.takeEvent_xportErr hb, .raise h.countIsLength h.capacity ⟨nofun, nofun⟩⟩
  · exact ⟨s, State.takeEvent_idle e (by simpa using hb), h⟩

/-- So does a delivery. -/
theorem State.Inv.deliver {s : State} (h : s.Inv) (bs : List Byte) : (s.deliver bs).Safe := by
  induction bs generalizing s with
  | nil => exact ⟨s, rfl, h⟩
  | cons b bs ih =>
    obtain ⟨u, hu, hinv⟩ := h.takeEvent (.rx b)
    rw [State.deliver_cons hu]
    exact ih hinv

/-- So does every row of the opcode table. -/
theorem State.Inv.exec {s : State} (h : s.Inv) (i : Instr) : Answer.Safe (exec i s) := by
  have hE := exec_effect i s
  generalize Machine.exec i s = a at hE ⊢
  cases hE with
  | event e _ => exact h.takeEvent e
  | delivery bs _ _ _ => exact h.deliver bs
  | output x _ _ _ _ _ => exact ⟨_, rfl, h.of_regs rfl rfl⟩
  | refusal _ => exact ⟨_, rfl, h.of_regs rfl rfl⟩
  | listening op m _ _ => exact ⟨_, rfl, .openExchange s op m⟩
  | sending op m F _ _ _ => exact ⟨_, rfl, (Inv.openExchange s op m).of_regs rfl rfl⟩
  | reset _ => exact ⟨_, rfl, .resetRegisters s⟩

/-- Only bytes presented as a request frame can fail to decode (log entry 12). -/
theorem decode_error {c : Config} {x : Context} {inp : Input} {r : Reject} (h : decode c x inp = .error r) :
    ∃ F, inp = .request F ∧ decodeRequest c F = .error r := by
  cases inp with
  | request F =>
    refine ⟨F, rfl, ?_⟩
    cases hd : decodeRequest c F with
    | ok i => simp [decode, hd] at h
    | error r' => simpa [decode, hd] using h
  | rxFrame b bs =>
    simp only [decode] at h
    split at h <;> cases h
  | cmd k => simp [decode] at h
  | event e => simp [decode] at h
  | pseudo p => simp [decode] at h

/-- From a state of the invariant a step answers a next state of the invariant, or it is a request frame's bytes that
step refuses. -/
theorem State.Inv.step {s : State} (h : s.Inv) :
    Answer.Safe (step s) ∨
    ∃ F pending r, s.inputs = .request F :: pending ∧ decodeRequest s.cfg F = .error r ∧
      step s = .refused (.undecodable r) := by
  cases hi : s.inputs with
  | nil => exact .inl ⟨s, step_nil hi, h⟩
  | cons inp pending =>
    cases hd : decode s.cfg s.context inp with
    | ok a =>
      obtain ⟨i, left⟩ := a
      rw [step_decoded hi hd]
      exact .inl ((h.of_regs (t := { s with inputs := left ++ pending }) rfl rfl).exec i)
    | error r =>
      obtain ⟨F, rfl, hF⟩ := decode_error hd
      exact .inr ⟨F, pending, r, rfl, hF, by simp [Machine.step, hi, hd]⟩

/-! ### The statements -/

/-- Settles O55: a step that answers a next state is no refusal, so its answer is a state of the invariant. -/
theorem stepKeepsTheInvariant : Obligations.StepKeepsTheInvariant := by
  intro s t h hs
  rcases h.step with ⟨u, hu, hinv⟩ | ⟨F, pending, r, -, -, hr⟩
  · cases hs.symm.trans hu
    exact hinv
  · cases hs.symm.trans hr

/-- Settles O56: progress is the other half of what `State.Inv.step` says. -/
theorem noFaultFromTheInvariant : Obligations.NoFaultFromTheInvariant :=
  fun _ h => h.step.imp_left fun ⟨t, ht, _⟩ => ⟨t, ht⟩

/-- Settles O57: the longest frame has at most 65541 bytes (R10). -/
theorem countsFitTheirWidths : Obligations.CountsFitTheirWidths := by
  intro s h
  obtain ⟨hc, he, ht⟩ := h.capacity
  have hmax := s.cfg.lengths.2.2.2.2.1
  exact ⟨h.countIsLength.symm, hc.trans hmax, by omega, by omega, ht⟩

/-- Settles O1: both are read off the record that State.reset and RESET write. -/
theorem resetGivesTheResetValues : Obligations.ResetGivesTheResetValues := by
  refine ⟨⟨rfl, rfl, rfl, rfl, rfl, rfl, rfl, rfl, rfl, rfl, rfl⟩, fun s => ⟨rfl, ?_⟩⟩
  rintro t ⟨⟩
  exact ⟨rfl, rfl⟩

/-- Settles O3: step's answer where no input is pending. -/
theorem nothingAdvancesWithoutAnEvent : Obligations.NothingAdvancesWithoutAnEvent :=
  fun _ => step_nil

/-- Settles O54: State.reset has the registers that RESET writes. -/
theorem invariantHoldsAtReset : Obligations.InvariantHoldsAtReset :=
  State.Inv.resetRegisters State.reset

end Sys2Proof.Machine
end

section
/-!
PROOFS. The statements of 20_memory.md about byte sequences: bytes that decode to a response row are that row's frame, so
running the row is running its bytes one RX event per step, index 0 first (R63; log entry 8); and the 16-bit view of a
version pair (R64).
-/

namespace Sys2Proof

/-! ### Subsequences -/

@[simp] theorem slice_self (B : List Byte) (i : Nat) : slice B i i = [] := by simp [slice]

/-- A subsequence cut in two (R13). -/
theorem slice_append_slice (B : List Byte) {i j k : Nat} (hij : i ≤ j) (hjk : j ≤ k) :
    slice B i j ++ slice B j k = slice B i k := by
  obtain ⟨m, rfl⟩ := Nat.exists_eq_add_of_le hij
  obtain ⟨n, rfl⟩ := Nat.exists_eq_add_of_le hjk
  rw [slice, slice, slice, ← List.drop_drop, show i + m - i = m by omega, show i + m + n - (i + m) = n by omega,
    show i + m + n - i = m + n by omega, List.take_add]

/-- A subsequence by its first byte. -/
theorem slice_eq_cons {B : List Byte} {b : Byte} {i j : Nat} (hb : B[i]? = some b) (hij : i < j) :
    slice B i j = b :: slice B (i + 1) j := by
  obtain ⟨hi, rfl⟩ := List.getElem?_eq_some_iff.mp hb
  rw [slice, slice, List.drop_eq_getElem_cons hi, show j - i = j - (i + 1) + 1 by omega, List.take_succ_cons]

/-! ### Bytes that decode to a response are its frame -/

/-- Bytes that open with START, close with END and hold the right CHECK are the envelope of what stands between (R80,
R85). -/
theorem eq_envelope {c : Config} {F : Frame} {n : Nat} (h0 : F[0]? = some c.pStart) (hn : F.length = n + 2 + c.checkLen)
    (he : endOk c F = true) (hc : checkOk c F = true) : F = envelope c (slice F 1 (n + 1)) := by
  have hend : F[n + 1 + c.checkLen]? = some c.pEnd := by simpa [endOk, hn, Nat.add_right_comm] using he
  have htail : slice F (n + 1) F.length = checkField c (slice F 1 (n + 1)) ++ [c.pEnd] := by
    rcases c.checkLen_cases with hk | hk <;> simp only [hk] at hn hend
    · rw [hn, slice_eq_cons hend (by omega)]
      simp [checkField, hk]
    · have hcheck : F[n + 1]? = some (Config.checksum (slice F 1 (n + 1))) := by simpa [checkOk, hk, hn] using hc
      rw [hn, slice_eq_cons hcheck (by omega), slice_eq_cons hend (by omega)]
      simp [checkField, hk]
  calc F = slice F 0 F.length := by simp [slice]
    _ = c.pStart :: slice F 1 F.length := slice_eq_cons h0 (by omega)
    _ = c.pStart :: (slice F 1 (n + 1) ++ slice F (n + 1) F.length) := by
      rw [slice_append_slice F (by omega) (by omega)]
    _ = envelope c (slice F 1 (n + 1)) := by rw [htail]; simp [envelope]

/-- What a whole response that is accepted has passed (R88, R89). -/
theorem closedBy_ok {c : Config} {F : Frame} {len : Nat} {i j : Instr} (h : closedBy c F len i = .ok j) :
    i = j ∧ F.length = len ∧ endOk c F = true ∧ checkOk c F = true := by
  unfold closedBy at h
  split at h
  · cases h
  split at h
  · cases h
  split at h
  · cases h
  cases h
  simp_all

/-- An accepted short response is the short frame of its opcode (R83). -/
theorem eq_shortFrame {c : Config} {F : Frame} {x : Byte} (h0 : F[0]? = some c.pStart) (h1 : F[1]? = some x)
    (hlen : F.length = c.shortLen) (he : endOk c F = true) (hc : checkOk c F = true) : F = shortFrame c x := by
  have hF := eq_envelope (n := 1) h0 hlen he hc
  rwa [slice_eq_cons h1 (by omega), slice_self] at hF

/-- An accepted read-ACK is the frame of its LEN and payload (R84). -/
theorem eq_readAckFrame {c : Config} {F : Frame} {l : Nat} (h0 : F[0]? = some c.pStart) (h1 : F[1]? = some c.pOpAck)
    (hl : memRead F 2 2 = some l) (hlen : F.length = c.overhead + l) (he : endOk c F = true) (hc : checkOk c F = true) :
    F = readAckFrame c (BitVec.ofNat 16 l) (slice F 4 (4 + l)) := by
  have hn : F.length = 3 + l + 2 + c.checkLen := by rw [hlen, Config.overhead]; omega
  obtain ⟨lo, h2⟩ : ∃ lo, F[2]? = some lo := ⟨_, List.getElem?_eq_getElem (by omega)⟩
  obtain ⟨hi, h3⟩ : ∃ hi, F[3]? = some hi := ⟨_, List.getElem?_eq_getElem (by omega)⟩
  have hle : le16 (BitVec.ofNat 16 l) = [lo, hi] := by
    rw [← Option.some.inj ((memRead_two h2 h3).symm.trans hl), le16_assembled]
  have hbody : slice F 1 (3 + l + 1) = [c.pOpAck] ++ le16 (BitVec.ofNat 16 l) ++ slice F 4 (4 + l) := by
    rw [slice_eq_cons h1 (by omega), slice_eq_cons h2 (by omega), slice_eq_cons h3 (by omega), hle,
      show 3 + l + 1 = 4 + l by omega]
    rfl
  rw [readAckFrame, ← hbody]
  exact eq_envelope h0 hn he hc

/-- A bad-opcode response is START and its byte (R89). -/
theorem eq_badOpcodeFrame {F : Frame} {a x : Byte} (h0 : F[0]? = some a) (h1 : F[1]? = some x) (hlen : F.length = 2) :
    F = [a, x] := by
  obtain ⟨y, z, rfl⟩ := List.length_eq_two.mp hlen
  simp_all

/-- A short response that is accepted is what the encoder gives for its row. -/
theorem encode_of_closedBy_short {c : Config} {F : Frame} {x : Byte} {i j : Instr} (h0 : F[0]? = some c.pStart)
    (h1 : F[1]? = some x) (hi : encode c i = delivery (shortFrame c x)) (h : closedBy c F c.shortLen i = .ok j) :
    encode c j = delivery F := by
  obtain ⟨rfl, hlen, he, hc⟩ := closedBy_ok h
  rw [hi, ← eq_shortFrame h0 h1 hlen he hc]

/-- Bytes that decode to a response row are what the encoder gives for that row (R83, R84, R89). -/
theorem encode_of_decodeResponse {c : Config} {op : Option Op} {F : Frame} {i : Instr}
    (h : decodeResponse c op F = .ok i) : encode c i = delivery F := by
  unfold decodeResponse at h
  split at h
  · cases h
  rename_i h0
  replace h0 : F[0]? = some c.pStart := by simpa using h0
  split at h
  · cases h
  rename_i x h1
  split at h
  · rename_i hx
    subst hx
    split at h
    · split at h
      · rename_i l hl
        obtain ⟨rfl, hlen, he, hc⟩ := closedBy_ok h
        exact congrArg delivery (eq_readAckFrame h0 h1 hl hlen he hc).symm
      · cases h
    · exact encode_of_closedBy_short h0 h1 rfl h
    · cases h
  split at h
  · rename_i hx
    exact encode_of_closedBy_short h0 h1 (hx ▸ rfl) h
  split at h
  · rename_i hx
    exact encode_of_closedBy_short h0 h1 (hx ▸ rfl) h
  split at h
  · rename_i hlen
    cases h
    exact congrArg delivery (eq_badOpcodeFrame h0 h1 hlen).symm
  · cases h

theorem delivery_injective : Function.Injective delivery := by
  intro F G h
  cases F <;> cases G <;> simp_all [delivery]

/-- No bytes are no response. -/
theorem decodeResponse_ne_nil {c : Config} {op : Option Op} {F : Frame} {i : Instr}
    (h : decodeResponse c op F = .ok i) : F ≠ [] := by
  rintro rfl
  simp [decodeResponse] at h

end Sys2Proof

namespace Sys2Proof.Machine

/-! ### A row and its bytes -/

/-- A row whose encoding is a delivery of bytes delivers those bytes (log entry 8). -/
theorem exec_of_encode_delivery {i : Instr} {s : State} {F : Frame} (hne : F ≠ []) (h : encode s.cfg i = delivery F) :
    exec i s = s.deliver F := by
  obtain ⟨b, bs, rfl⟩ := List.exists_cons_of_ne_nil hne
  cases i
  case rspAckRead | rspAckWrite | rspNack | rspReady | rspBadOpcode =>
    rw [encode] at h
    exact congrArg (State.deliver · s) (delivery_injective h)
  all_goals cases h

/-- The row that the dispatch selects for an event is a row of that event (R174). -/
theorem eventOf_eventRow (x : Context) (e : Event) : eventOf (eventRow x e) = some e := by
  unfold eventRow
  split
  · rfl
  cases e with
  | rx b =>
    show eventOf (rxRow x b) = some (.rx b)
    unfold rxRow
    split
    case h_4 | h_5 => split <;> rfl
    all_goals rfl
  | rxNone =>
    show eventOf (if x.failsFast then .rxNonePing else .rxNone) = some .rxNone
    split <;> rfl
  | tick => rfl
  | xportErr => rfl

/-- One step with an event pending takes that event, the rest still pending. -/
theorem step_event (s : State) (e : Event) (pending : List Input) :
    step { s with inputs := .event e :: pending } = ({ s with inputs := pending } : State).takeEvent e := by
  rw [step_decoded (s := { s with inputs := _ }) (left := []) rfl rfl]
  exact exec_of_eventOf _ (eventOf_eventRow _ e)

section Run
/-! A run by its first step. -/

variable {M : Host.Core} {k : Nat} {s : M.State}

theorem run_succ_of_next {t : M.State} (h : M.step s = .next t) : M.run (k + 1) s = M.run k t := by
  rw [Host.Core.run, h]

theorem run_succ_of_fault {r : M.Fault} (h : M.step s = .fault r) : M.run (k + 1) s = .fault r := by
  rw [Host.Core.run, h]

theorem run_succ_of_refused {r : M.Refusal} (h : M.step s = .refused r) : M.run (k + 1) s = .refused r := by
  rw [Host.Core.run, h]

end Run

/-- As many steps as there are bytes pending as RX events do what the delivery of the bytes does, and leave what is pending
behind them (R63, R143). -/
theorem run_rx_events (bs : List Byte) (pending : List Input) (r : Bool) (m : List Emit) (s : State) :
    Host.Core.run core bs.length (s.outside r (bs.map (fun b => .event (.rx b)) ++ pending) m) =
      (s.deliver bs).map (State.outside · r pending m) := by
  induction bs generalizing s with
  | nil => rfl
  | cons b bs ih =>
    have hstep : core.step (s.outside r ((b :: bs).map (fun b => .event (.rx b)) ++ pending) m) =
        (s.takeEvent (.rx b)).map (State.outside · r (bs.map (fun b => .event (.rx b)) ++ pending) m) :=
      (step_event (s.outside r [] m) _ _).trans (State.takeEvent_outside s r _ m _)
    rw [State.deliver]
    cases ht : s.takeEvent (.rx b) with rw [ht] at hstep
    | next t => exact (run_succ_of_next hstep).trans (ih t)
    | fault _ => exact run_succ_of_fault hstep
    | refused _ => exact run_succ_of_refused hstep

/-- Settles O39: both sides are the delivery of F to s with only `pending` behind it. -/
theorem frameRowsAreTheirBytes : Obligations.FrameRowsAreTheirBytes := by
  intro s F i pending hp hd
  have hrow : step { s with inputs := delivery F :: pending } = ({ s with inputs := pending } : State).deliver F := by
    rw [step_decoded (s := { s with inputs := _ }) rfl (decode_delivery hp hd)]
    exact exec_of_encode_delivery (decodeResponse_ne_nil hd) (encode_of_decodeResponse hd)
  rw [hrow]
  exact (State.deliver_outside s s.refused pending [] F).trans (run_rx_events F pending s.refused [] s).symm

/-! ### Version pairs -/

/-- major << 8 | minor is the little-endian value of the two bytes (R62, R64). -/
theorem versionWord_toNat (minor major : Byte) : (versionWord minor major).toNat = minor.toNat + 256 * major.toNat := by
  have hword : versionWord minor major = (major ++ minor).setWidth 16 :=
    BitVec.setWidth_append_eq_shiftLeft_setWidth_or.symm
  rw [hword, BitVec.setWidth_eq, BitVec.toNat_append, ← Nat.shiftLeft_add_eq_or_of_lt minor.isLt, Nat.shiftLeft_eq]
  omega

/-- Settles O41: both bytes of a version pair lie in the page (WF2), and a two-byte read is major << 8 | minor of them. -/
theorem versionViewsAgree : Obligations.VersionViewsAgree := by
  intro c B hB o ho
  have ho : o + 1 < B.length := by
    obtain ⟨hmap, hfw, -⟩ := c.fields_in_page
    rcases List.mem_pair.mp ho with rfl | rfl
    · exact hmap.trans hB
    · exact hfw.trans hB
  have hlo : B[o]? = some B[o] := List.getElem?_eq_getElem _
  have hhi : B[o + 1]? = some B[o + 1] := List.getElem?_eq_getElem ho
  exact ⟨_, _, hlo, hhi, by rw [memRead_two hlo hhi, versionWord_toNat]⟩

end Sys2Proof.Machine
end

section
/-!
PROOFS. The statements of 30_encoding.md: decode and encode are inverse on every row (R80 to R91), the bytes of a request frame
index by index (R81, R82), which rows put a frame on TX (R90), and the expansions of the pseudo-commands (R94).
-/

namespace Sys2Proof

/-! ### Bytes that decode to a request are its frame -/

/-- A two-byte read, split again, is the bytes it was read from (R15, R92). -/
theorem slice_eq_le16 {B : List Byte} {o v : Nat} (h : memRead B o 2 = some v) :
    slice B o (o + 2) = le16 (BitVec.ofNat 16 v) := by
  obtain ⟨hB, hv, -⟩ := memRead_some h
  obtain ⟨lo, hi, hs⟩ := List.length_eq_two.mp (show (slice B o (o + 2)).length = 2 by rw [slice_length]; omega)
  rw [hv, hs]
  exact (le16_assembled lo hi).symm

/-- Bytes that open with START and the opcode of op, hold ADDR and LEN, and close well are the request frame of those fields
(R81, R82). -/
theorem eq_requestFrame {c : Config} {F : Frame} {op : Op} {a l : Nat} (h0 : F[0]? = some c.pStart)
    (h1 : F[1]? = some (requestOpcode c op)) (ha : memRead F 2 2 = some a) (hl : memRead F 4 2 = some l)
    (hlen : c.reqLen 0 ≤ F.length) (he : endOk c F = true) (hc : checkOk c F = true) :
    F = requestFrame c op (BitVec.ofNat 16 a) (BitVec.ofNat 16 l) (slice F 6 (F.length - 1 - c.checkLen)) := by
  obtain ⟨n, hn⟩ := Nat.exists_eq_add_of_le hlen
  have hn' : F.length = n + 5 + 2 + c.checkLen := by rw [hn, Config.reqLen]; omega
  have hbody : slice F 1 (n + 5 + 1) = [requestOpcode c op] ++ le16 (BitVec.ofNat 16 a) ++ le16 (BitVec.ofNat 16 l) ++
      slice F 6 (F.length - 1 - c.checkLen) := by
    rw [slice_eq_cons h1 (by omega), ← slice_append_slice F (show 2 ≤ 4 by omega) (show 4 ≤ n + 5 + 1 by omega),
      ← slice_append_slice F (show 4 ≤ 6 by omega) (show 6 ≤ n + 5 + 1 by omega), slice_eq_le16 ha, slice_eq_le16 hl,
      show F.length - 1 - c.checkLen = n + 5 + 1 by omega]
    simp
  rw [requestFrame, ← hbody]
  exact eq_envelope h0 hn' he hc

/-- Bytes that decode to a request are the request frame of operands that such a frame can carry (R81, R82). -/
theorem requestFrame_of_decodeRequest {c : Config} {F : Frame} {i : Instr} (h : decodeRequest c F = .ok i) :
    ∃ op a l d, F = requestFrame c op a l d ∧ (op = .read → d = []) ∧ payloadFits d = true := by
  unfold decodeRequest at h
  split at h
  · cases h
  rename_i hlen
  split at h
  · cases h
  rename_i h0
  split at h
  · cases h
  rename_i he
  split at h
  · cases h
  rename_i hc
  split at h
  case h_2 => cases h
  rename_i x a l h1 ha hl
  have hframe (op : Op) (hx : x = requestOpcode c op) :=
    eq_requestFrame (by simpa using h0) (hx ▸ h1) ha hl (by omega) (by simpa using he) (by simpa using hc)
  dsimp only at h
  split at h
  · rename_i hx
    split at h
    · rename_i hd
      exact ⟨.read, _, _, _, hframe .read hx, fun _ => hd, by rw [hd]; rfl⟩
    · cases h
  split at h
  · rename_i hx
    split at h
    · rename_i hd
      exact ⟨.write, _, _, _, hframe .write hx, nofun, hd⟩
    · cases h
  · cases h

/-- Bytes that decode to a request row are what the encoder gives for that row, and the row is well-formed. -/
theorem encode_of_decodeRequest {c : Config} {F : Frame} {i : Instr} (h : decodeRequest c F = .ok i) :
    encode c i = .request F ∧ i.wellFormed c = true := by
  obtain ⟨op, a, l, d, rfl, hr, hd⟩ := requestFrame_of_decodeRequest h
  rw [decodeRequest_requestFrame c op a l d hd hr] at h
  cases op with
  | read =>
    cases h
    cases hr rfl
    exact ⟨rfl, rfl⟩
  | write =>
    cases h
    exact ⟨rfl, hd⟩

/-! ### Bytes that decode to a response are a well-formed row -/

/-- A read-ACK is accepted only with as many payload bytes as its LEN says (R84, R88). -/
theorem lengthAgrees_of_decodeResponse {c : Config} {op : Option Op} {l : Half} {d : List Byte}
    (h : decodeResponse c op (readAckFrame c l d) = .ok (.rspAckRead l d)) : lengthAgrees l d = true := by
  have hs : (readAckFrame c l d)[0]? = some c.pStart := envelope_start c _
  obtain ⟨ho, hl⟩ := readAckFrame_fields c l d
  rcases op with _ | _ | _ <;>
    simp only [decodeResponse, hs, ho, hl, bne_self_eq_false, Bool.false_eq_true, if_false, if_true] at h
  · cases h
  · obtain ⟨-, hlen, -⟩ := closedBy_ok h
    rw [readAckFrame_length] at hlen
    exact beq_iff_eq.mpr (by omega)
  · obtain ⟨hi, -⟩ := closedBy_ok h
    cases hi

/-- START and a byte are a bad-opcode response only if the byte is no response opcode (R89). -/
theorem isBadOpcode_of_decodeResponse {c : Config} {op : Option Op} {x : Byte}
    (h : decodeResponse c op [c.pStart, x] = .ok (.rspBadOpcode x)) : isBadOpcode c x = true := by
  by_contra hx
  have hmem : x ∈ c.responseOpcodes := by simpa [isBadOpcode] using hx
  have hlen : ∀ {n j k}, 3 ≤ n → closedBy c [c.pStart, x] n j ≠ .ok k := by
    intro n j k hn hk
    obtain ⟨-, hl, -⟩ := closedBy_ok hk
    simp at hl
    omega
  obtain ⟨hshort, -⟩ := c.lengths
  simp only [Config.responseOpcodes, List.mem_cons, List.not_mem_nil, or_false] at hmem
  rcases hmem with rfl | rfl | rfl
  · rcases op with _ | _ | _
    · simp [decodeResponse] at h
    · simp [decodeResponse, memRead] at h
    · exact hlen hshort (by simpa [decodeResponse] using h)
  · exact hlen hshort (by simpa [decodeResponse, c.nack_ne_ack] using h)
  · exact hlen hshort (by simpa [decodeResponse, c.ready_ne_ack, c.ready_ne_nack] using h)

/-- A response row that bytes decode to is well-formed: only two response rows carry a condition, and the decoder tests
it. -/
theorem wellFormed_of_decodeResponse {c : Config} {op : Option Op} {F : Frame} {i : Instr}
    (h : decodeResponse c op F = .ok i) : i.wellFormed c = true := by
  have henc := encode_of_decodeResponse h
  cases i
  case rspAckRead l d =>
    cases delivery_injective (a₁ := readAckFrame c l d) henc
    exact lengthAgrees_of_decodeResponse h
  case rspBadOpcode x =>
    cases delivery_injective (a₁ := [c.pStart, x]) henc
    exact isBadOpcode_of_decodeResponse h
  case reqWrite a l d =>
    obtain ⟨b, bs, rfl⟩ := List.exists_cons_of_ne_nil (decodeResponse_ne_nil h)
    cases henc
  all_goals rfl

/-- Settles O6: a decoded frame has passed every test that fixes its bytes, field by field, and every test of
well-formedness. -/
theorem decodedFramesEncodeBack : Obligations.DecodedFramesEncodeBack :=
  fun _ _ _ => ⟨encode_of_decodeRequest, fun _ h => ⟨encode_of_decodeResponse h, wellFormed_of_decodeResponse h⟩⟩

end Sys2Proof

namespace Sys2Proof.Laws.RoundTrip

/-- The round trip of every row of the opcode table. -/
theorem every_row : ∀ i : Instr, Statement i
  | .reqRead a l => reqRead a l
  | .reqWrite a l d => reqWrite a l d
  | .rspAckRead l d => rspAckRead l d
  | .rspAckWrite => rspAckWrite
  | .rspNack => rspNack
  | .rspReady => rspReady
  | .rspBadOpcode x => rspBadOpcode x
  | .build op a d l => build op a d l
  | .encodeControl v => encodeControl v
  | .beginExchange op a d l m => beginExchange op a d l m
  | .listen op m => listen op m
  | .decodePage B => decodePage B
  | .reset => reset
  | .rxSeeking b => rxSeeking b
  | .rxHaveOpcode b => rxHaveOpcode b
  | .rxSizingLo b => rxSizingLo b
  | .rxSizingHi b => rxSizingHi b
  | .rxCollecting b => rxCollecting b
  | .rxComplete b => rxComplete b
  | .rxNone => rxNone
  | .rxNonePing => rxNonePing
  | .tick => tick
  | .xportErr => xportErr
  | .eventIdle e => eventIdle e
  | .readPage => readPage
  | .writeBytes a d => writeBytes a d
  | .writeControl v => writeControl v
  | .probe m => probe m

/-- Settles O5: row by row, a frame by its layout laws, an event by the registers that select its row, a command by its
tag. -/
theorem decodeEncodeIsIdentity : Obligations.DecodeEncodeIsIdentity := fun c x i => every_row i c x

end Sys2Proof.Laws.RoundTrip

namespace Sys2Proof

/-! ### The bytes of a frame, index by index -/

/-- The bytes of a request frame (R81, R82, R85). -/
theorem requestFrame_layout {c : Config} {op : Op} {a l : Half} {d : List Byte} {F : Frame}
    (hF : F = requestFrame c op a l d) :
    F.length = 7 + d.length + c.checkLen ∧ F[0]? = some c.pStart ∧ F[1]? = some (requestOpcode c op) ∧
    F[2]? = some (a.extractLsb' 0 8) ∧ F[3]? = some (a.extractLsb' 8 8) ∧
    F[4]? = some (l.extractLsb' 0 8) ∧ F[5]? = some (l.extractLsb' 8 8) ∧
    (∀ k, k < d.length → F[6 + k]? = d[k]?) ∧
    (c.checkLen = 1 → F[6 + d.length]? = some (Config.checksum (slice F 1 (6 + d.length)))) ∧
    F[6 + d.length + c.checkLen]? = some c.pEnd := by
  subst hF
  have hidx : 6 + d.length = ([requestOpcode c op] ++ le16 a ++ le16 l ++ d).length + 1 := by simp; omega
  refine ⟨requestFrame_length c op a l d, envelope_start c _, rfl, rfl, rfl, rfl, rfl, fun k hk => ?_, fun hc => ?_, ?_⟩
  · rw [requestFrame, show 6 + k = 5 + k + 1 by omega, envelope_body c _ (by omega)]
    simp [le16, Nat.add_comm 5 k]
  · rw [requestFrame, hidx, envelope_covered]
    exact envelope_check c _ hc
  · rw [requestFrame, hidx]
    exact envelope_end c _

/-- Where CHECK_LEN = 0, a frame is START, the body and END (R80, R85). -/
theorem envelope_of_no_check {c : Config} (h : c.checkLen = 0) (body : List Byte) :
    envelope c body = c.pStart :: (body ++ [c.pEnd]) := by
  simp [envelope, checkField, h]

/-- Settles O7: without CHECK each list is the frame that the layout gives for its row, and START with a request opcode is
a bad-opcode response. -/
theorem writtenOutFramesDecode : Obligations.WrittenOutFramesDecode := by
  intro c hc
  obtain ⟨hack, hnack, hready⟩ := decodeResponse_shortFrame c
  have hbad : isBadOpcode c c.pOpRead = true := by
    obtain ⟨-, -, hr, -⟩ := c.not_response
    simpa [isBadOpcode] using hr
  have hread := decodeRequest_requestFrame c .read 0x1234 0x0100 [] rfl (fun _ => rfl)
  have hwrite := decodeRequest_requestFrame c .write 0x0010 2 [0xAA, 0xBB] (by decide) nofun
  have hackRead := decodeResponse_readAckFrame c 3 [0x11, 0x22, 0x33] (by decide)
  simp only [requestFrame, readAckFrame, shortFrame, envelope_of_no_check hc] at hread hwrite hackRead hack hnack hready
  exact ⟨hread, hwrite, hackRead, hack, hnack none, hready none, decodeResponse_badOpcode c none _ hbad⟩

end Sys2Proof

namespace Sys2Proof.Machine

/-! ### Request frames on ENC -/

/-- BUILD, where R114 does not refuse it (R111, R112). -/
theorem State.buildOnEnc_of_fits (s : State) {op : Op} {a l : Nat} {d : List Byte} (h : buildRefused op a d l = false) :
    s.buildOnEnc op a d l =
      s.emit (.encFrame (requestFrame s.cfg op (BitVec.ofNat 16 a) (BitVec.ofNat 16 l) d)) := by
  simp [State.buildOnEnc, buildFrame, h]

/-- BUILD, where R114 refuses it. -/
theorem State.buildOnEnc_of_refused (s : State) {op : Op} {a l : Nat} {d : List Byte}
    (h : buildRefused op a d l = true) : s.buildOnEnc op a d l = s.refuse := by
  simp [State.buildOnEnc, buildFrame, h]

/-- 16-bit operands are never out of range (R114). -/
theorem buildRefused_half {op : Op} (a l : Half) {d : List Byte} (hr : op = .read → d = [])
    (hd : d.length ≤ maxField) : buildRefused op a.toNat d l.toNat = false :=
  buildRefused_eq_false.mpr ⟨hr, hd, Nat.le_of_lt_succ a.isLt, Nat.le_of_lt_succ l.isLt⟩

/-- REQ_READ puts its frame on ENC (R111; log entry 8). -/
theorem exec_reqRead (s : State) (a l : Half) :
    exec (.reqRead a l) s = .next (s.emit (.encFrame (requestFrame s.cfg .read a l []))) := by
  rw [exec, execReqRead, s.buildOnEnc_of_fits (buildRefused_half a l (fun _ => rfl) (Nat.zero_le _))]
  simp

/-- REQ_WRITE puts its frame on ENC (R112; log entry 8). -/
theorem exec_reqWrite (s : State) (a l : Half) {d : List Byte} (hd : d.length ≤ maxField) :
    exec (.reqWrite a l d) s = .next (s.emit (.encFrame (requestFrame s.cfg .write a l d))) := by
  rw [exec, execReqWrite, s.buildOnEnc_of_fits (buildRefused_half (op := .write) a l nofun hd)]
  simp

/-- Settles O10: the layout of a request frame without a payload. -/
theorem readRequestLayout : Obligations.ReadRequestLayout := by
  intro s a l
  obtain ⟨hlen, h0, h1, h2, h3, h4, h5, -, hcheck, hend⟩ := requestFrame_layout (F := requestFrame s.cfg .read a l []) rfl
  exact ⟨_, exec_reqRead s a l, hlen, h0, h1, h2, h3, h4, h5, hcheck, hend⟩

/-- Settles O11: the layout of a request frame, or R114's refusal of the payload. -/
theorem writeRequestLayout : Obligations.WriteRequestLayout := by
  intro s a l d
  refine ⟨fun hd => ?_, fun hd => ⟨_, exec_reqWrite s a l hd, requestFrame_layout rfl⟩⟩
  have hr : buildRefused .write a.toNat d l.toNat = true := by simp [buildRefused, maxField, hd]
  rw [exec, execReqWrite, s.buildOnEnc_of_refused hr]
  rfl

/-! ### Which rows put a frame on TX -/

/-- From s to t nothing was emitted and DONE neither entered nor left, or DONE was entered and CLOSE emitted, once (R232). -/
def State.ClosesOnDone (s t : State) : Prop :=
  ((t.phase = .done ↔ s.phase = .done) ∧ t.emitted = s.emitted) ∨
  (s.phase ≠ .done ∧ t.phase = .done ∧ t.emitted = s.emitted ++ [.close])

theorem State.ClosesOnDone.trans {s u t : State} (h₁ : s.ClosesOnDone u) (h₂ : u.ClosesOnDone t) : s.ClosesOnDone t := by
  rcases h₁ with ⟨hu, he₁⟩ | ⟨hs, hu, he₁⟩ <;> rcases h₂ with ⟨ht, he₂⟩ | ⟨hu', ht, he₂⟩
  · exact .inl ⟨ht.trans hu, he₂.trans he₁⟩
  · exact .inr ⟨fun hs => hu' (hu.mpr hs), ht, he₁ ▸ he₂⟩
  · exact .inr ⟨hs, ht.mpr hu, he₂.trans he₁⟩
  · exact absurd hu hu'

/-- An active phase is not DONE. -/
theorem State.ne_done_of_busy {s : State} (h : s.busy = true) : s.phase ≠ .done := by
  intro hd
  simp [State.busy, hd, Phase.idle] at h

theorem State.takeEvent_closesOnDone {s t : State} {e : Event} (h : s.takeEvent e = .next t) : s.ClosesOnDone t := by
  rcases State.takeEvent_shape h with ⟨-, rfl⟩ | ⟨hb, u, hu, rfl | ⟨x, rfl⟩⟩
  · exact .inl ⟨Iff.rfl, rfl⟩
  · exact .inl ⟨iff_of_false (State.ne_done_of_busy hu.busy) (State.ne_done_of_busy hb), hu.emitted⟩
  · exact .inr ⟨State.ne_done_of_busy hb, rfl, congrArg (· ++ [Emit.close]) hu.emitted⟩

theorem State.deliver_closesOnDone {s t : State} {bs : List Byte} (h : s.deliver bs = .next t) : s.ClosesOnDone t :=
  State.deliver_induction (R := State.ClosesOnDone) (fun _ => .inl ⟨Iff.rfl, rfl⟩)
    (fun _ _ _ _ hu => (State.takeEvent_closesOnDone hu).trans) h

/-- Neither nothing nor CLOSE is a frame on TX. -/
theorem State.ClosesOnDone.no_tx {s t : State} (h : s.ClosesOnDone t) (F : Frame) :
    t.emitted ≠ s.emitted ++ [.tx F] := by
  rcases h with ⟨-, he⟩ | ⟨-, -, he⟩ <;> simp [he]

/-- The row of an event opens no exchange. -/
theorem opensExchange_of_eventOf {i : Instr} {e : Event} (h : eventOf i = some e) : opensExchange i = false := by
  cases i <;> cases h <;> rfl

/-- Settles O48: of the effects only `sending` puts a frame on TX; a refused opening command finds the block BUSY or leaves
it in OFF or DONE. -/
theorem transmitOnlyWhenOpening : Obligations.TransmitOnlyWhenOpening := by
  intro i s t h
  have hE := exec_effect i s
  rw [h] at hE
  generalize ha : (Host.Outcome.next t : Answer) = a at hE
  have opens_none {p : Prop} (ho : opensExchange i = false) : ¬ (opensExchange i = true ∧ p) := by simp [ho]
  cases hE with
  | event e he =>
    exact iff_of_false (not_exists.mpr (State.takeEvent_closesOnDone ha.symm).no_tx)
      (opens_none (opensExchange_of_eventOf he))
  | delivery bs _ ho _ =>
    exact iff_of_false (not_exists.mpr (State.deliver_closesOnDone ha.symm).no_tx) (opens_none ho)
  | output x _ ho _ _ htx =>
    cases ha
    exact iff_of_false (by simpa using htx) (opens_none ho)
  | refusal _ =>
    cases ha
    refine iff_of_false (by simp) ?_
    rintro ⟨-, -, hb, hp⟩
    simp [State.busy_of_seeking (s := s) hp] at hb
  | listening op m _ hi =>
    cases ha
    exact iff_of_false (by simp) fun ⟨_, hl, _⟩ => hl op m hi
  | sending op m F hb ho hi =>
    cases ha
    exact iff_of_true ⟨F, rfl⟩ ⟨ho, hi, hb, rfl⟩
  | reset hi =>
    cases ha
    exact iff_of_false (by simp) (opens_none (hi ▸ rfl))

/-! ### Pseudo-commands -/

/-- Settles O20: the meaning of each pseudo-command is the meaning of BEGIN on its fixed operands (R94). -/
theorem pseudoCommandsExpand : Obligations.PseudoCommandsExpand :=
  fun _ _ _ _ _ => ⟨rfl, rfl, rfl, rfl⟩

end Sys2Proof.Machine
end

section
/-!
PROOFS. The statements of 40_frame_encoder.md: what BUILD puts on ENC, byte by byte, and when R114 refuses it (R110 to R116),
what ENCODE_CONTROL gives (R121), what the combinational rows leave unchanged (R110), and the frames of the pseudo-commands
(R120 to R124).
-/

namespace Sys2Proof

/-! ### Operands as bytes -/

/-- The two bytes of a 16-bit field, from the operand it was made of (R15, R92). -/
theorem le16_ofNat (n : Nat) : le16 (BitVec.ofNat 16 n) = [BitVec.ofNat 8 n, BitVec.ofNat 8 (n / 256)] := by
  simp only [le16, List.cons.injEq, and_true]
  constructor <;> apply BitVec.eq_of_toNat_eq <;>
    simp only [BitVec.extractLsb'_toNat, BitVec.toNat_ofNat, Nat.shiftRight_eq_div_pow] <;> omega

/-- An operand that fits a 16-bit field is the value of that field (R114). -/
theorem toNat_ofNat_of_le_maxField {n : Nat} (h : n ≤ maxField) : (BitVec.ofNat 16 n).toNat = n :=
  (BitVec.toNat_ofNat n 16).trans (Nat.mod_eq_of_lt (Nat.lt_succ_of_le h))

theorem controlByte_toNat (v : Nat) : (controlByte v).toNat = v % 256 := by simp [controlByte]

theorem controlByte_eq_ofNat (v : Nat) : controlByte v = BitVec.ofNat 8 v :=
  BitVec.eq_of_toNat_eq (controlByte_toNat v)

/-- CONTROL_ADDR is below 256 (R11, R201). -/
theorem Config.controlAddr_lt (c : Config) : c.controlAddr < 256 := by
  obtain ⟨-, -, hctrl, -⟩ := c.fields_in_page
  rw [Config.controlAddr]
  omega

/-! ### The bytes of a built request -/

/-- What stands between START and CHECK in a request built from operands: OPCODE, ADDR, LEN, payload (R111, R112). -/
def requestBody (c : Config) (op : Op) (addr : Nat) (payload : List Byte) (length : Nat) : List Byte :=
  [requestOpcode c op, BitVec.ofNat 8 addr, BitVec.ofNat 8 (addr / 256), BitVec.ofNat 8 length,
    BitVec.ofNat 8 (length / 256)] ++ payload

theorem requestFrame_ofNat (c : Config) (op : Op) (a l : Nat) (d : List Byte) :
    requestFrame c op (BitVec.ofNat 16 a) (BitVec.ofNat 16 l) d = envelope c (requestBody c op a d l) := by
  rw [requestFrame, le16_ofNat, le16_ofNat]
  rfl

/-- When BUILD is refused (R114). -/
theorem buildRefused_eq_true {op : Op} {a l : Nat} {d : List Byte} :
    buildRefused op a d l = true ↔
      (op = .read ∧ d ≠ []) ∨ maxField < d.length ∨ maxField < a ∨ maxField < l := by
  simp [buildRefused, or_assoc]

/-- A WRITE whose operands are in range is not refused, whatever its LEN says of its payload (R112, R115). -/
theorem buildRefused_write {a l : Nat} {d : List Byte} (hd : d.length ≤ maxField) (ha : a ≤ maxField)
    (hl : l ≤ maxField) : buildRefused .write a d l = false :=
  buildRefused_eq_false.mpr ⟨nofun, hd, ha, hl⟩

end Sys2Proof

namespace Sys2Proof.Machine

/-! ### BUILD -/

/-- BUILD, where R114 refuses it. -/
theorem exec_build_of_refused (s : State) {op : Op} {a l : Nat} {d : List Byte} (h : buildRefused op a d l = true) :
    exec (.build op a d l) s = .next s.refuse :=
  congrArg _ (s.buildOnEnc_of_refused h)

/-- BUILD, where R114 does not refuse it (R111, R112). -/
theorem exec_build_of_fits (s : State) {op : Op} {a l : Nat} {d : List Byte} (h : buildRefused op a d l = false) :
    exec (.build op a d l) s = .next (s.emit (.encFrame (envelope s.cfg (requestBody s.cfg op a d l)))) := by
  rw [exec, execBuild, s.buildOnEnc_of_fits h, requestFrame_ofNat]

/-- A frame that BUILD has put on ENC is the one it builds. -/
theorem buildFrame_of_exec_build {s : State} {op : Op} {a l : Nat} {d : List Byte} {F : Frame}
    (h : exec (.build op a d l) s = .next (s.emit (.encFrame F))) : buildFrame s.cfg op a d l = some F := by
  have hE : (s.buildOnEnc op a d l).emitted = s.emitted ++ [.encFrame F] :=
    congrArg State.emitted (Host.Outcome.next.inj h)
  rcases s.buildOnEnc_cases op a d l with ⟨F', hF, hs⟩ | ⟨-, hs⟩ <;> rw [hs] at hE
  · obtain rfl : F' = F := by simpa using hE
    exact hF
  · simp at hE

/-- Settles O14: the frame on ENC is the request frame of the operands, and these fit their fields. -/
theorem builtRequestDecodesBack : Obligations.BuiltRequestDecodesBack := by
  intro s op A L d F h
  obtain ⟨hfits, rfl⟩ := buildFrame_some (buildFrame_of_exec_build h)
  obtain ⟨-, -, hA, hL⟩ := buildRefused_eq_false.mp hfits
  obtain ⟨hop, haddr, hlen⟩ := requestFrame_fields s.cfg op (BitVec.ofNat 16 A) (BitVec.ofNat 16 L) d
  rw [toNat_ofNat_of_le_maxField hA] at haddr
  rw [toNat_ofNat_of_le_maxField hL] at hlen
  refine ⟨haddr, hlen, envelope_start s.cfg _, beq_iff_eq.mp (envelope_endOk s.cfg _), ?_⟩
  cases op <;> exact hop

/-- Settles O12: R114's refusals of a READ, and otherwise its body with no payload. -/
theorem buildRead : Obligations.BuildRead := by
  refine fun s A L d => ⟨fun h => exec_build_of_refused s (buildRefused_eq_true.mpr ?_), fun hA hL => ?_⟩
  · exact h.imp (fun hd => ⟨rfl, hd⟩) .inr
  · exact exec_build_of_fits s (buildRefused_eq_false.mpr
      ⟨fun _ => rfl, Nat.zero_le _, Nat.le_of_lt_succ hA, Nat.le_of_lt_succ hL⟩)

/-- Settles O13: R114's refusals of a WRITE, and otherwise its body with LEN as given (R115). -/
theorem buildWrite : Obligations.BuildWrite := by
  refine fun s A L d => ⟨fun h => exec_build_of_refused s (buildRefused_eq_true.mpr (.inr h)), fun hd hA hL => ?_⟩
  exact exec_build_of_fits s (buildRefused_write hd (Nat.le_of_lt_succ hA) (Nat.le_of_lt_succ hL))

/-! ### The combinational rows -/

/-- Settles O15: the byte is the control byte of c. -/
theorem encodeControlResult : Obligations.EncodeControlResult :=
  fun _ c => ⟨controlByte c, controlByte_toNat c, rfl⟩

/-- BUILD keeps the pending inputs and writes no register but REFUSED (R110, R114). -/
theorem State.buildOnEnc_registers (s : State) (op : Op) (a : Nat) (d : List Byte) (l : Nat) :
    { s.buildOnEnc op a d l with refused := s.refused, emitted := s.emitted } = s := by
  rcases s.buildOnEnc_cases op a d l with ⟨F, -, h⟩ | ⟨-, h⟩ <;> rw [h] <;> rfl

/-- DECODE_PAGE puts its result on PAGE (R200). -/
theorem exec_decodePage {s t : State} {B : List Byte} (h : exec (.decodePage B) s = .next t) :
    ∃ r, t = s.emit (.page r) := by
  obtain ⟨r, hr⟩ := decodePage_some s.cfg B
  rw [exec, execDecodePage, hr] at h
  exact ⟨r, (Host.Outcome.next.inj h).symm⟩

/-- Settles O16: the two request frames are BUILDs, and the other rows only emit. -/
theorem combinationalRowsKeepRegisters : Obligations.CombinationalRowsKeepRegisters := by
  intro i s t hi h
  cases i
  case reqRead a l => cases h; exact s.buildOnEnc_registers ..
  case reqWrite a l d => cases h; exact s.buildOnEnc_registers ..
  case build op a d l => cases h; exact s.buildOnEnc_registers ..
  case encodeControl c => cases h; rfl
  case decodePage B => obtain ⟨r, rfl⟩ := exec_decodePage h; rfl
  all_goals exact hi.elim

/-! ### The frames of the pseudo-commands -/

/-- BEGIN, from a state that is not BUSY and where R114 does not refuse its operands (R140). -/
theorem State.beginWith_of_fits {s : State} {op : Op} {a l : Nat} {d : List Byte} (m : Mode) (hb : s.busy = false)
    (h : buildRefused op a d l = false) :
    s.beginWith op a d l m = (s.openExchange op m).emit (.tx (envelope s.cfg (requestBody s.cfg op a d l))) := by
  simp [State.beginWith, buildFrame, hb, h, requestFrame_ofNat]

/-- The write that WRITE_CONTROL sends: one byte, at an address whose high byte is 0 (R121, R123). -/
theorem requestBody_writeControl (c : Config) (v : Nat) :
    requestBody c .write (encodeControl c v).1 (encodeControl c v).2 (encodeControl c v).2.length =
      [c.pOpWrite, BitVec.ofNat 8 c.offControl, 0x00, 0x01, 0x00, BitVec.ofNat 8 v] := by
  have hhigh : c.offControl / 256 = 0 := Nat.div_eq_of_lt c.controlAddr_lt
  simp [requestBody, requestOpcode, encodeControl, Config.controlAddr, hhigh, controlByte_eq_ofNat]

/-- WRITE_CONTROL is in range for every c (R121, R123). -/
theorem buildRefused_writeControl (c : Config) (v : Nat) :
    buildRefused .write (encodeControl c v).1 (encodeControl c v).2 (encodeControl c v).2.length = false := by
  have hlen : (encodeControl c v).2.length ≤ maxField := show 1 ≤ maxField by decide
  exact buildRefused_write hlen (c.controlAddr_lt.le.trans (by decide)) hlen

/-- Settles O21: each pseudo-command is a BEGIN whose operands R114 does not refuse. -/
theorem pseudoCommandsSendTheirFrames : Obligations.PseudoCommandsSendTheirFrames := by
  intro s A d c m hb
  refine ⟨?_, ?_, ?_, fun hA hd => ?_⟩
  · exact congrArg _ (State.beginWith_of_fits .normal hb (by decide))
  · exact congrArg _ (State.beginWith_of_fits m hb (by decide))
  · rw [exec, execWriteControl, State.beginWith_of_fits .normal hb (buildRefused_writeControl s.cfg c),
      requestBody_writeControl]
    rfl
  · exact congrArg _ (State.beginWith_of_fits .normal hb (buildRefused_write hd hA hd))

end Sys2Proof.Machine
end

section
/-!
PROOFS. The statements of 41_response_classifier.md: opening an exchange (R140 to R143), the rules of its events one by one
(R144 to R173), response frames delivered whole (R147, R163 to R167), and runs: the budget (R172, R175) and the independence
of exchanges (R176).
-/

namespace Sys2Proof.Machine

/-! ### Steps -/

/-- Settles O4: the two answers of a step with an input pending, by what the input decodes to. -/
theorem stepRunsTheDecodedInstruction : Obligations.StepRunsTheDecodedInstruction :=
  fun _ _ _ hs => ⟨fun _ _ hd => step_decoded hs hd, fun _ hd => by simp [step, hs, hd]⟩

/-! ### Opening an exchange -/

/-- The exchange registers as an opening command writes them, with what it emits (R140, R141). -/
def State.opened (s : State) (op : Op) (m : Mode) (out : List Emit) : State :=
  { s.openExchange op m with emitted := s.emitted ++ out }

/-- In the states that are not BUSY and have configuration c, i is refused in all of them, or opens the same exchange with
the same output in all. -/
def OpensAlike (i : Instr) (c : Config) : Prop :=
  (∀ s : State, s.cfg = c → s.busy = false → exec i s = .next s.refuse) ∨
  ∃ op m out, ∀ s : State, s.cfg = c → s.busy = false → exec i s = .next (s.opened op m out)

/-- A BEGIN, as a command or as a pseudo-command: its operands decide. -/
theorem OpensAlike.of_beginWith {i : Instr} {c : Config} {op : Op} {a : Nat} {d : List Byte} {l : Nat} {m : Mode}
    (h : ∀ s : State, s.cfg = c → exec i s = .next (s.beginWith op a d l m)) : OpensAlike i c := by
  cases hr : buildRefused op a d l with
  | true => exact .inl fun s hc hb => by simp [h s hc, State.beginWith, hb, buildFrame, hr]
  | false =>
    refine .inr ⟨op, m, [.tx (envelope c (requestBody c op a d l))], fun s hc hb => ?_⟩
    rw [h s hc, State.beginWith_of_fits m hb hr, hc]
    rfl

/-- What an opening command does depends on the configuration and on BUSY only (R142, R176). -/
theorem opensAlike_of_opensExchange {i : Instr} (hi : opensExchange i = true) (c : Config) : OpensAlike i c := by
  cases i
  case beginExchange => exact .of_beginWith fun _ _ => rfl
  case readPage => exact .of_beginWith fun _ _ => rfl
  case writeBytes => exact .of_beginWith fun _ _ => rfl
  case writeControl v => exact .of_beginWith (a := (encodeControl c v).1) (by rintro s rfl; rfl)
  case probe => exact .of_beginWith fun _ _ => rfl
  case listen op m =>
    refine .inr ⟨op, m, [], fun s _ hb => ?_⟩
    rw [exec, execListen, State.listenWith, if_neg (by simp [hb]), State.opened, List.append_nil]
    rfl
  all_goals cases hi

/-- An opening command that leaves the block in SEEKING has opened an exchange, and opens the same one in every state that
is not BUSY and has the same configuration. -/
theorem exec_opened {i : Instr} {s t : State} (hi : opensExchange i = true) (hb : s.busy = false)
    (h : exec i s = .next t) (hp : t.phase = .seeking) :
    ∃ op m out, t = s.opened op m out ∧
      ∀ s' : State, s'.cfg = s.cfg → s'.busy = false → exec i s' = .next (s'.opened op m out) := by
  rcases opensAlike_of_opensExchange hi s.cfg with hu | ⟨op, m, out, hu⟩
  · obtain rfl : s.refuse = t := Host.Outcome.next.inj ((hu s rfl hb).symm.trans h)
    simp [State.busy_of_seeking (s := s) hp] at hb
  · exact ⟨op, m, out, Host.Outcome.next.inj (h.symm.trans (hu s rfl hb)), hu⟩

/-- Settles O17: BEGIN's three cases, by BUSY and by what R114 says of its operands. -/
theorem beginOpensAnExchange : Obligations.BeginOpensAnExchange := by
  refine fun s op A L d m => ⟨fun hb => ?_, fun h => ?_, fun hb hop hd hA hL => ?_⟩
  · exact congrArg Host.Outcome.next (if_pos hb)
  · have hr := buildRefused_eq_true.mpr h
    rcases s.beginWith_cases op A d L m with ⟨-, hs⟩ | ⟨-, F, hF, -⟩
    · exact congrArg Host.Outcome.next hs
    · simp [buildFrame, hr] at hF
  · have hs := State.beginWith_of_fits m hb (buildRefused_eq_false.mpr ⟨hop, hd, hA, hL⟩)
    rw [← requestFrame_ofNat] at hs
    exact congrArg Host.Outcome.next hs

/-- Settles O18: LISTEN's two cases, by BUSY. -/
theorem listenOpensAnExchange : Obligations.ListenOpensAnExchange :=
  fun _ _ _ => ⟨fun hb => congrArg Host.Outcome.next (if_pos hb),
    fun hb => congrArg Host.Outcome.next (if_neg (by simp [hb]))⟩

/-- Settles O19: of the effects of an opening command, only a refusal can be had while BUSY. -/
theorem noOverlapOfExchanges : Obligations.NoOverlapOfExchanges := by
  intro s i hb hi
  have hE := exec_effect i s
  generalize exec i s = a at hE ⊢
  cases hE with
  | event e he => simp [opensExchange_of_eventOf he] at hi
  | delivery bs _ ho _ => simp [ho] at hi
  | output x _ ho _ _ _ => simp [ho] at hi
  | refusal _ => rfl
  | listening op m hn _ => simp [hb] at hn
  | sending op m F hn _ _ => simp [hb] at hn
  | reset hr => simp [hr, opensExchange] at hi

/-! ### RX, rule by rule -/

/-- Settles O34: every row of an event has been compared with the dispatch. -/
theorem eventRowsAgreeWithTheDispatch : Obligations.EventRowsAgreeWithTheDispatch :=
  fun _ _ s h => exec_of_eventOf s h

section Rules
variable {s : State} {b : Byte}

/-- START in SEEKING (R145). -/
theorem State.rxInSeeking_start (s : State) : s.rxInSeeking s.cfg.pStart =
    { s with rxSeen := true, buf := [s.cfg.pStart], count := 1, phase := .haveOpcode } := if_pos rfl

/-- Any other byte in SEEKING (R146). -/
theorem State.rxInSeeking_noise (h : b ≠ s.cfg.pStart) : s.rxInSeeking b = { s with rxSeen := true } := if_neg h

/-- An ACK to a Read (R152). -/
theorem State.classify_ack_read (h : s.reqOp = some .read) :
    s.classify s.cfg.pOpAck = .next (s.accept .ack s.cfg.overhead .sizing) := by
  rw [State.classify, if_pos rfl, h]

/-- A response opcode, an ACK only to a Write (R153 to R155). -/
theorem State.classify_short (k : RxKind) (h : k = .ack → s.reqOp = some .write) :
    s.classify (opcodeOf s.cfg k) = .next (s.accept k s.cfg.shortLen .collecting) := by
  cases k with
  | ack => rw [State.classify, opcodeOf, if_pos rfl, h rfl]
  | nack => rw [State.classify, opcodeOf, if_neg s.cfg.nack_ne_ack, if_pos rfl]
  | ready => rw [State.classify, opcodeOf, if_neg s.cfg.ready_ne_ack, if_neg s.cfg.ready_ne_nack, if_pos rfl]

/-- A byte that is no response opcode (R151). -/
theorem State.classify_bad (h1 : b ≠ s.cfg.pOpAck) (h2 : b ≠ s.cfg.pOpNack) (h3 : b ≠ s.cfg.pOpReady) :
    s.classify b = .next (s.raise (.malformed .badOpcode)) := by
  rw [State.classify, if_neg h1, if_neg h2, if_neg h3]

/-- Both length bytes are in BUF (R157). -/
theorem State.revise_of_memRead {L : Nat} (h : memRead s.buf 2 2 = some L) :
    s.revise = .next { s with expected := s.cfg.overhead + L, phase := .collecting } := by
  rw [State.revise, h, ← revisedLength_eq]

/-- The over-length guard (R159). -/
theorem State.takeEvent_rx_collecting_gt (h : s.phase = .collecting) (hc : s.expected < s.count + 1) :
    s.takeEvent (.rx b) = .next ((s.take b).raise (.malformed .overLength)) := by
  rw [State.takeEvent_rx (by simp [State.busy_iff, h]), State.receive, h]
  exact if_pos hc

/-- The END test fails (R161). -/
theorem State.complete_of_bad_end (h : s.buf[s.expected - 1]? ≠ some s.cfg.pEnd) :
    s.complete = .next (s.raise (.malformed .badEnd)) := if_pos h

/-- The END test passes and the check test fails (R162). -/
theorem State.complete_of_bad_check (he : s.buf[s.expected - 1]? = some s.cfg.pEnd) (hc : s.cfg.checkLen = 1)
    (hk : s.buf[s.expected - 2]? ≠ some (Config.checksum (slice s.buf 1 (s.expected - 2)))) :
    s.complete = .next (s.raise (.malformed .badCheck)) := by
  have hf : s.checkFails = true := by simp [State.checkFails, hc, hk]
  rw [State.complete, if_neg (not_not_intro he), if_pos hf]

/-- Both tests pass (R163 to R166). -/
theorem State.complete_of_passed (he : s.buf[s.expected - 1]? = some s.cfg.pEnd)
    (hk : s.cfg.checkLen = 1 → s.buf[s.expected - 2]? = some (Config.checksum (slice s.buf 1 (s.expected - 2)))) :
    s.complete = s.conclude := by
  have hf : s.checkFails ≠ true := by simpa [State.checkFails] using hk
  rw [State.complete, if_neg (not_not_intro he), if_neg hf]

theorem State.conclude_ack_read {L : Nat} (hk : s.rxKind = some .ack) (ho : s.reqOp = some .read)
    (hL : memRead s.buf 2 2 = some L) : s.conclude = .next (s.raise (.ack (slice s.buf 4 (4 + L)))) := by
  rw [State.conclude, hk, ho]
  simp only [hL]

theorem State.conclude_ack_write (hk : s.rxKind = some .ack) (ho : s.reqOp = some .write) :
    s.conclude = .next (s.raise (.ack [])) := by
  rw [State.conclude, hk, ho]

theorem State.conclude_ready (hk : s.rxKind = some .ready) : s.conclude = .next (s.raise .ready) := by
  rw [State.conclude, hk]

theorem State.conclude_nack (hk : s.rxKind = some .nack) : s.conclude = .next (s.raise .rejected) := by
  rw [State.conclude, hk]

end Rules

/-- Settles O22: the two cases of RX in SEEKING, by whether the byte is START. -/
theorem seekingTakesOnlyStart : Obligations.SeekingTakesOnlyStart := by
  intro s b hp
  rw [exec_of_eventOf s (e := .rx b) rfl, State.takeEvent_rx_seeking hp]
  exact ⟨fun hb => by rw [hb, State.rxInSeeking_start], fun hb => by rw [State.rxInSeeking_noise hb]⟩

/-- Settles O23: the byte is appended, and then the opcode is classified as none of the three. -/
theorem badOpcodeEndsTheExchange : Obligations.BadOpcodeEndsTheExchange := by
  intro s b hp h1 h2 h3
  rw [exec_of_eventOf s (e := .rx b) rfl, State.takeEvent_rx_haveOpcode hp]
  exact State.classify_bad (s := s.take b) h1 h2 h3

/-- Settles O24: by kind, and for an ACK by REQ_OP. -/
theorem acceptedOpcodeSetsTheLength : Obligations.AcceptedOpcodeSetsTheLength := by
  intro s hp
  have hrow (b : Byte) : exec (.rxHaveOpcode b) s = (s.take b).classify b :=
    (exec_of_eventOf s rfl).trans (State.takeEvent_rx_haveOpcode hp)
  refine ⟨fun ho => ?_, fun ho => ?_, ?_, ?_⟩ <;> rw [hrow]
  · exact State.classify_ack_read (s := s.take _) ho
  · exact State.classify_short (s := s.take _) .ack fun _ => ho
  · exact State.classify_short (s := s.take _) .nack nofun
  · exact State.classify_short (s := s.take _) .ready nofun

/-- Settles O25: with the high byte appended, BUF[2] and BUF[3] are the two length bytes. -/
theorem lengthBytesReviseTheLength : Obligations.LengthBytesReviseTheLength := by
  refine fun s b hp => ⟨fun hc => ?_, fun lo hc hlen hlo => ?_⟩
  · rw [exec_of_eventOf s (e := .rx b) rfl, State.takeEvent_rx_sizing_low hp (by simp [hc]),
      show (3 : Nat) = s.count + 1 by rw [hc]]
    rfl
  · have hL : memRead (s.take b).buf 2 2 = some (lo.toNat + 256 * b.toNat) :=
      memRead_two ((List.getElem?_append_left (l₁ := s.buf) (by omega)).trans hlo) (by simp [hlen])
    rw [exec_of_eventOf s (e := .rx b) rfl, State.takeEvent_rx_sizing_high hp hc, State.revise_of_memRead hL,
      show (4 : Nat) = s.count + 1 by rw [hc]]
    rfl

/-- Settles O26: below EXPECTED the dispatch appends the byte and does no more. -/
theorem collectingAppends : Obligations.CollectingAppends := by
  intro s b hp hc
  rw [exec_of_eventOf s (e := .rx b) rfl, State.takeEvent_rx_collecting_lt hp hc]
  rfl

/-- Settles O27: I5 bounds COUNT below EXPECTED. -/
theorem overLengthGuard : Obligations.OverLengthGuard := by
  refine ⟨fun s b hp hc => ?_, fun s h hp => ?_⟩
  · rw [exec_of_eventOf s (e := .rx b) rfl, State.takeEvent_rx_collecting_gt hp hc]
    rfl
  · obtain ⟨-, hlt, -⟩ := h.collecting hp
    omega

/-- At completion the last byte stands at EXPECTED - 1 (I1). -/
theorem State.take_last {s : State} (b : Byte) (hc : s.count + 1 = s.expected) (hl : s.buf.length = s.count) :
    (s.take b).buf[(s.take b).expected - 1]? = some b := by
  simp [← hc, ← hl]

/-- Settles O28: the END test comes first. -/
theorem completionTestsInOrder : Obligations.CompletionTestsInOrder := by
  intro s b hp hc hl
  have hlast := State.take_last b hc hl
  rw [exec_of_eventOf s (e := .rx b) rfl, State.takeEvent_rx_collecting_eq hp hc]
  refine ⟨fun hb => ?_, fun hb hk hbad => ?_⟩
  · exact State.complete_of_bad_end (by rw [hlast]; simpa using hb)
  · exact State.complete_of_bad_check (hb ▸ hlast) hk hbad

/-- Settles O29: both tests pass, and the outcome is that of the kind. -/
theorem completionByKind : Obligations.CompletionByKind := by
  intro s hp hc hl hcheck
  rw [exec_of_eventOf s (e := .rx s.cfg.pEnd) rfl, State.takeEvent_rx_collecting_eq hp hc,
    State.complete_of_passed (State.take_last _ hc hl) hcheck]
  refine ⟨fun lo hi hk ho hlo hhi => ?_, fun hk ho => ?_, fun hk => ?_, fun hk => ?_⟩
  · have hL : memRead (s.take s.cfg.pEnd).buf 2 2 = some (lo.toNat + 256 * hi.toNat) := by
      have hB := memRead_two hlo hhi
      exact (memRead_append (memRead_some hB).1).trans hB
    exact State.conclude_ack_read hk ho hL
  · exact State.conclude_ack_write hk ho
  · exact State.conclude_ready hk
  · exact State.conclude_nack hk

/-! ### The other events -/

/-- When an empty poll fails fast (R171). -/
theorem State.failsFast_iff (s : State) : s.context.failsFast = true ↔ s.mode = some .ping ∧ s.rxSeen = false := by
  simp [Context.failsFast]

/-- An empty poll with MODE = NORMAL or RX_SEEN = 1 (R170). -/
theorem State.takeEvent_rxNone_ignored {s : State} (hb : s.busy = true)
    (h : s.mode = some .normal ∨ s.rxSeen = true) : s.takeEvent .rxNone = .next s := by
  have hf : ¬ s.context.failsFast = true := by
    rw [State.failsFast_iff]
    rcases h with h | h <;> simp [h]
  rw [State.takeEvent_rxNone hb, State.emptyPoll, if_neg hf]

/-- Settles O30: by whether the poll fails fast. -/
theorem emptyPolls : Obligations.EmptyPolls := by
  refine fun s hb => ⟨fun h => ?_, fun hm hs => ?_⟩
  · exact (exec_of_eventOf s rfl).trans (State.takeEvent_rxNone_ignored hb h)
  · rw [exec_of_eventOf s (e := .rxNone) rfl, State.takeEvent_rxNone hb]
    exact congrArg Host.Outcome.next (if_pos (s.failsFast_iff.mpr ⟨hm, hs⟩))

/-- Settles O31: by whether the TICK uses up the budget. -/
theorem tickCountsTheBudget : Obligations.TickCountsTheBudget := by
  intro s hb
  rw [exec_of_eventOf s (e := .tick) rfl, State.takeEvent_tick hb]
  exact ⟨fun h => congrArg Host.Outcome.next (if_neg h), fun h => congrArg Host.Outcome.next (if_pos h)⟩

/-- Settles O32: the row is the dispatch's, and there the error raises TRANSPORT_ERROR. -/
theorem transportErrorEndsTheExchange : Obligations.TransportErrorEndsTheExchange :=
  fun s hb => (exec_of_eventOf s rfl).trans (State.takeEvent_xportErr hb)

/-- Settles O33: OFF and DONE are the phases that are not BUSY. -/
theorem eventsAreIgnoredWhenIdle : Obligations.EventsAreIgnoredWhenIdle := by
  intro s e h
  have hb := s.not_busy_iff.mpr h
  refine ⟨?_, (exec_of_eventOf s rfl).trans (State.takeEvent_idle e hb)⟩
  rw [decode, eventRow_idle e (by simpa [State.busy] using hb)]

/-! ### Response frames, delivered whole -/

section Frames
variable {s : State}

/-- The last byte of a delivery. -/
theorem State.deliver_singleton (s : State) (b : Byte) : s.deliver [b] = s.takeEvent (.rx b) := by
  cases h : s.takeEvent (.rx b) <;> simp [State.deliver, h]

/-- START and an opcode, delivered to an open exchange (R145, R150). -/
theorem State.deliver_opcode {u : State} {x : Byte} (rest : List Byte) (hp : s.phase = .seeking)
    (h : State.classify { s with rxSeen := true, buf := [s.cfg.pStart, x], count := 2, phase := .haveOpcode } x =
      .next u) : s.deliver (s.cfg.pStart :: x :: rest) = u.deliver rest := by
  rw [State.deliver_cons ((State.takeEvent_rx_seeking hp).trans (congrArg _ s.rxInSeeking_start))]
  exact State.deliver_cons ((State.takeEvent_rx_haveOpcode rfl).trans h)

/-- A frame laid out by the envelope passes the tests at completion (R161, R162). -/
theorem State.complete_of_envelope {body : List Byte} (hb : s.buf = envelope s.cfg body)
    (he : s.expected = s.buf.length) : s.complete = s.conclude := by
  refine State.complete_of_passed ?_ fun hk => ?_
  · rw [he, hb]
    exact beq_iff_eq.mp (envelope_endOk s.cfg body)
  · have h := envelope_checkOk s.cfg body
    rw [he, hb]
    simpa [checkOk, hk] using h

/-- s while a response of kind k and of n bytes is being received, the bytes p so far. -/
def State.inFrame (s : State) (k : RxKind) (p : List Byte) (n : Nat) : State :=
  { s with rxSeen := true, buf := p, count := p.length, expected := n, rxKind := some k, phase := .collecting }

/-- Bytes that do not complete the frame are appended (R158). -/
theorem State.deliver_inFrame {k : RxKind} {p : List Byte} {n : Nat} (bs rest : List Byte)
    (h : p.length + bs.length < n) :
    (s.inFrame k p n).deliver (bs ++ rest) = (s.inFrame k (p ++ bs) n).deliver rest := by
  induction bs generalizing p with
  | nil => simp
  | cons b bs ih =>
    have hb : (s.inFrame k p n).takeEvent (.rx b) = .next (s.inFrame k (p ++ [b]) n) := by
      refine (State.takeEvent_rx_collecting_lt rfl ?_).trans ?_
      · exact (Nat.succ_le_succ (Nat.le_add_right _ _)).trans_lt h
      · simp [State.inFrame, State.take, State.append]
    rw [List.cons_append, State.deliver_cons hb, ih (by simp at h ⊢; omega), List.append_assoc, List.singleton_append]

/-- The rest of a frame whose length is known, delivered to its end, ends the exchange with the result of the whole frame
(R160). -/
theorem State.deliver_inFrame_end {k : RxKind} {p bs body : List Byte} {F : Frame} {n : Nat} {x : ExchangeOutcome}
    (hF : F = envelope s.cfg body) (hn : F.length = n) (hp : p ++ bs ++ [s.cfg.pEnd] = F)
    (hx : (s.inFrame k F n).conclude = .next ((s.inFrame k F n).raise x)) :
    (s.inFrame k p n).deliver (bs ++ [s.cfg.pEnd]) = .next { s with
      rxSeen := true, buf := F, count := n, expected := n, rxKind := some k, phase := .done, outcome := some x,
      emitted := s.emitted ++ [.close] } := by
  have hlen : (p ++ bs).length + 1 = n := by rw [← hn, ← hp, List.length_append (bs := [_])]; rfl
  have htake : (s.inFrame k (p ++ bs) n).take s.cfg.pEnd = s.inFrame k F n := by
    simp only [State.take, State.append, State.inFrame, hp, hlen, hn]
  rw [State.deliver_inFrame bs _ (by simp at hlen; omega), State.deliver_singleton,
    State.takeEvent_rx_collecting_eq rfl hlen, htake, State.complete_of_envelope hF hn.symm, hx]
  subst hn
  rfl

/-- A short response gives the outcome of its kind (R153 to R155, R160). -/
theorem State.deliver_shortFrame (k : RxKind) {x : ExchangeOutcome} (hp : s.phase = .seeking)
    (hk : k = .ack → s.reqOp = some .write)
    (hx : ∀ u : State, u.rxKind = some k → u.reqOp = s.reqOp → u.conclude = .next (u.raise x)) :
    s.deliver (shortFrame s.cfg (opcodeOf s.cfg k)) = .next { s with
      rxSeen := true, buf := shortFrame s.cfg (opcodeOf s.cfg k), count := s.cfg.shortLen, expected := s.cfg.shortLen,
      rxKind := some k, phase := .done, outcome := some x, emitted := s.emitted ++ [.close] } := by
  have hclass := State.classify_short
    (s := { s with rxSeen := true, buf := [s.cfg.pStart, opcodeOf s.cfg k], count := 2, phase := .haveOpcode }) k hk
  exact (State.deliver_opcode _ hp hclass).trans
    (State.deliver_inFrame_end (p := [s.cfg.pStart, opcodeOf s.cfg k]) (bs := checkField s.cfg [opcodeOf s.cfg k]) rfl
      (shortFrame_length _ _) rfl (hx _ rfl rfl))

/-- START, ACK and the length field of a read-ACK, delivered to an open Read exchange (R152, R156, R157). -/
theorem State.deliver_readAck_header (l : Half) (rest : List Byte) (hp : s.phase = .seeking)
    (ho : s.reqOp = some .read) :
    s.deliver ([s.cfg.pStart, s.cfg.pOpAck] ++ le16 l ++ rest) =
      (s.inFrame .ack ([s.cfg.pStart, s.cfg.pOpAck] ++ le16 l) (s.cfg.overhead + l.toNat)).deliver rest := by
  have hclass := State.classify_ack_read
    (s := { s with rxSeen := true, buf := [s.cfg.pStart, s.cfg.pOpAck], count := 2, phase := .haveOpcode }) ho
  have hL : memRead ([s.cfg.pStart, s.cfg.pOpAck] ++ le16 l) 2 2 = some l.toNat := by
    rw [← leNat_le16 l]
    exact memRead_two rfl rfl
  refine (State.deliver_opcode (le16 l ++ rest) hp hclass).trans ?_
  refine (State.deliver_cons (State.takeEvent_rx_sizing_low rfl (by simp))).trans ?_
  exact State.deliver_cons ((State.takeEvent_rx_sizing_high rfl rfl).trans (State.revise_of_memRead hL))

/-- The result of a whole read-ACK is its payload (R163). -/
theorem State.conclude_readAckFrame {l : Half} {d : List Byte} (hd : d.length = l.toNat) (hk : s.rxKind = some .ack)
    (ho : s.reqOp = some .read) (hb : s.buf = readAckFrame s.cfg l d) : s.conclude = .next (s.raise (.ack d)) := by
  have hL : memRead s.buf 2 2 = some d.length := by rw [hb, (readAckFrame_fields s.cfg l d).2, hd]
  rw [State.conclude_ack_read hk ho hL, hb, readAckFrame_payload]

end Frames

/-- Settles O38, by induction on the noise: each of its bytes is dropped, and RX_SEEN is 1 already. -/
theorem noiseIsScannedPast : Obligations.NoiseIsScannedPast := by
  intro s noise F hp hs hnoise
  induction noise with
  | nil => rfl
  | cons b noise ih =>
    obtain ⟨hb, hrest⟩ := List.forall_mem_cons.mp hnoise
    have hdrop : s.takeEvent (.rx b) = .next s := by
      rw [State.takeEvent_rx_seeking hp, State.rxInSeeking_noise hb, ← hs]
    exact (State.deliver_cons hdrop).trans (ih hrest)

/-- Settles O36: each is the short frame of its opcode. -/
theorem shortFramesGiveTheirOutcomes : Obligations.ShortFramesGiveTheirOutcomes := by
  intro s hp
  refine ⟨fun ho => ?_, ?_, ?_⟩
  · exact State.deliver_shortFrame .ack hp (fun _ => ho) fun _ hk hq => State.conclude_ack_write hk (hq.trans ho)
  · exact State.deliver_shortFrame .nack hp nofun fun _ hk _ => State.conclude_nack hk
  · exact State.deliver_shortFrame .ready hp nofun fun _ hk _ => State.conclude_ready hk

/-- Settles O35: the header fixes the length, and the payload, CHECK and END complete the frame. -/
theorem readAckFrameRecoversThePayload : Obligations.ReadAckFrameRecoversThePayload := by
  intro s l d hp ho hd body F
  have hn : 5 + d.length + s.cfg.checkLen = s.cfg.overhead + l.toNat := by rw [hd, Nat.add_right_comm]; rfl
  have hF : [s.cfg.pStart, s.cfg.pOpAck] ++ le16 l ++ (d ++ checkField s.cfg body) ++ [s.cfg.pEnd] = F := by
    simp [F, body, le16, checkField]
  have hlen : F.length = s.cfg.overhead + l.toNat := hd ▸ readAckFrame_length s.cfg l d
  have hx := State.conclude_readAckFrame (s := s.inFrame .ack F (s.cfg.overhead + l.toNat)) hd rfl ho rfl
  rw [hn]
  calc s.deliver F
      = s.deliver ([s.cfg.pStart, s.cfg.pOpAck] ++ le16 l ++ (d ++ checkField s.cfg body ++ [s.cfg.pEnd])) := by
        rw [← List.append_assoc, hF]
    _ = _ := State.deliver_readAck_header l _ hp ho
    _ = _ := State.deliver_inFrame_end (body := body) rfl hlen hF hx

/-- Settles O37: the opcode ends the exchange, and the distinctness of the seven bytes (R8) makes the named ones such
opcodes. -/
theorem badOpcodeFrameIsMalformed : Obligations.BadOpcodeFrameIsMalformed := by
  refine fun s x hp => ⟨fun h1 h2 h3 => ?_, fun hx => ?_⟩
  · exact (State.deliver_opcode [] hp (State.classify_bad h1 h2 h3)).trans rfl
  · have hnot := s.cfg.not_response
    simp only [Config.responseOpcodes, List.mem_cons, List.not_mem_nil, or_false, not_or] at hnot
    obtain ⟨hs, he, hr, hw⟩ := hnot
    rcases hx with rfl | rfl | rfl | rfl
    · exact hs
    · exact he
    · exact hr
    · exact hw

/-! ### Runs of events -/

/-- A run whose oldest input is an event takes the event first. -/
theorem run_event_cons {s t : State} {e : Event} {pending : List Input} (k : Nat) (hi : s.inputs = .event e :: pending)
    (h : ({ s with inputs := pending } : State).takeEvent e = .next t) :
    Host.Core.run core (k + 1) s = Host.Core.run core k t := by
  have hstep := step_event s e pending
  rw [← hi, h] at hstep
  exact run_succ_of_next (M := core) hstep

/-- In OFF and DONE a run of events changes nothing (R144). -/
theorem run_events_idle {s : State} {es : List Event} (hb : s.busy = false) (hi : s.inputs = es.map .event) :
    Host.Core.run core es.length s = .next { s with inputs := [] } := by
  induction es generalizing s with
  | nil => rw [← show s.inputs = [] from hi]; rfl
  | cons e es ih =>
    exact (run_event_cons es.length hi (State.takeEvent_idle e hb)).trans (ih hb rfl)

theorem ticks_cons (e : Event) (es : List Event) : ticks (e :: es) = ticks es + if e = .tick then 1 else 0 := by
  simp [ticks, List.count_cons]

/-! ### The budget -/

section Timeout
variable {s t : State} {b : Byte}

theorem State.revise_collecting (h : s.revise = .next t) : t.phase = .collecting := by
  unfold State.revise at h
  split at h <;> cases h
  rfl

/-- A complete frame never gives TIMEOUT (R160 to R166). -/
theorem State.complete_ne_timeout (h : s.complete = .next t) : t.outcome ≠ some .timeout := by
  unfold State.complete State.conclude at h
  repeat' split at h
  all_goals cases h
  all_goals nofun

/-- No byte gives TIMEOUT: one that leaves the exchange active gives no outcome, and the outcomes of a bad opcode and of a
complete frame are others. -/
theorem State.Inv.rx_ne_timeout (h : s.Inv) (hb : s.busy = true) (ht : s.takeEvent (.rx b) = .next t) :
    t.outcome ≠ some .timeout := by
  have active (hbt : t.busy = true) : t.outcome ≠ some .timeout := by
    rw [(State.advances_of_busy ht hb hbt).outcome, h.outcome_none hb]
    nofun
  rcases s.busy_iff.mp hb with hp | hp | hp | hp
  · rw [State.takeEvent_rx_seeking hp] at ht
    cases ht
    exact active (State.rxInSeeking_busy hp)
  · rw [State.takeEvent_rx_haveOpcode hp] at ht
    rcases (s.take b).classify_cases (b := b) (h.latched hb).1 with ⟨-, -, hc⟩ | ⟨k, -, -, hc⟩ | hc <;>
      rw [hc] at ht <;> cases ht
    · exact active rfl
    · exact active rfl
    · nofun
  · by_cases hc : s.count = 3
    · rw [State.takeEvent_rx_sizing_high hp hc] at ht
      exact active (by simp [State.busy_iff, State.revise_collecting ht])
    · rw [State.takeEvent_rx_sizing_low hp hc] at ht
      cases ht
      exact active hb
  · rcases Nat.lt_or_eq_of_le (Nat.succ_le_of_lt (h.collecting hp).2.1) with hc | hc
    · rw [State.takeEvent_rx_collecting_lt hp hc] at ht
      cases ht
      exact active hb
    · rw [State.takeEvent_rx_collecting_eq hp hc] at ht
      exact State.complete_ne_timeout ht

/-- TIMEOUT comes with an empty poll in PING mode or with the TICK that uses up the budget, and with nothing else (R171,
R172). -/
theorem State.Inv.timeout_cause {e : Event} (h : s.Inv) (hb : s.busy = true) (ht : s.takeEvent e = .next t)
    (ho : t.outcome = some .timeout) : s.mode = some .ping ∨ (e = .tick ∧ s.elapsed + 1 = s.cfg.budgetTicks) := by
  have hnone := h.outcome_none hb
  cases e with
  | rx b => exact absurd ho (h.rx_ne_timeout hb ht)
  | rxNone =>
    rw [State.takeEvent_rxNone hb, State.emptyPoll] at ht
    split at ht <;> cases ht
    · next hf => exact .inl (s.failsFast_iff.mp hf).1
    · simp [hnone] at ho
  | tick =>
    rw [State.takeEvent_tick hb, State.tickOnce] at ht
    split at ht <;> cases ht
    · next hlast => exact .inr ⟨rfl, hlast⟩
    · simp [hnone] at ho
  | xportErr =>
    rw [State.takeEvent_xportErr hb] at ht
    cases ht
    simp at ho

end Timeout

/-- Settles O58, by induction on the events: while the exchange is active the invariant keeps ELAPSED below the budget, and
the event that ends it leaves a state that the later ones do not change. -/
theorem exchangeEndsWithinTheBudget : Obligations.ExchangeEndsWithinTheBudget := by
  intro s es h hb hi
  induction es generalizing s with
  | nil =>
    refine ⟨s, rfl, fun hle => ?_, fun ho => ?_⟩
    · exact absurd hle (by simpa [ticks] using h.withinBudget hb)
    · simp [h.outcome_none hb] at ho
  | cons e es ih =>
    have h' : ({ s with inputs := es.map .event } : State).Inv := h.of_regs rfl rfl
    obtain ⟨t, ht, hinv⟩ := h'.takeEvent e
    rw [List.length_cons, run_event_cons es.length hi ht, ticks_cons]
    rcases State.takeEvent_shape ht with ⟨hn, -⟩ | ⟨-, u, hu, rfl | ⟨x, rfl⟩⟩
    · simp [hb] at hn
    · obtain ⟨v, hv, hdone, htimeout⟩ := ih t hinv hu.busy hu.inputs
      rw [hu.cfg, hu.elapsed] at hdone htimeout
      rw [hu.mode] at htimeout
      refine ⟨v, hv, fun hle => hdone (by simp only; omega), fun ho => (htimeout ho).imp_right fun hle => ?_⟩
      simp only at hle
      omega
    · refine ⟨_, run_events_idle rfl hu.inputs, fun _ => rfl, fun ho => ?_⟩
      refine (h'.timeout_cause hb ht ho).imp_right fun ⟨he, hlast⟩ => ?_
      simp only at hlast
      rw [he, if_pos rfl]
      omega

/-- A run of an exchange in SEEKING that receives nothing: ELAPSED counts the TICKs up to the budget (R172). -/
theorem run_silent {s : State} {es : List Event} (hp : s.phase = .seeking) (ho : s.outcome = none)
    (hlt : s.elapsed < s.cfg.budgetTicks) (hi : s.inputs = es.map .event)
    (hes : ∀ e ∈ es, e = .tick ∨ (e = .rxNone ∧ s.mode = some .normal)) :
    ∃ t, Host.Core.run core es.length s = .next t ∧
      (s.elapsed + ticks es < s.cfg.budgetTicks →
        t.phase = .seeking ∧ t.outcome = none ∧ t.elapsed = s.elapsed + ticks es ∧ t.emitted = s.emitted) ∧
      (s.cfg.budgetTicks ≤ s.elapsed + ticks es →
        t.phase = .done ∧ t.outcome = some .timeout ∧ t.elapsed = s.cfg.budgetTicks ∧
        t.emitted = s.emitted ++ [.close]) := by
  induction es generalizing s with
  | nil =>
    refine ⟨s, rfl, fun _ => ⟨hp, ho, rfl, rfl⟩, fun hle => ?_⟩
    exact absurd hle (by simpa [ticks] using hlt)
  | cons e es ih =>
    obtain ⟨he, hrest⟩ := List.forall_mem_cons.mp hes
    have hb := State.busy_of_seeking hp
    rcases he with rfl | ⟨rfl, hm⟩
    · have ht := State.takeEvent_tick (s := { s with inputs := es.map .event }) hb
      rw [List.length_cons, run_event_cons es.length hi ht, ticks_cons, if_pos rfl, State.tickOnce]
      split
      · next hlast =>
        simp only at hlast
        refine ⟨_, run_events_idle rfl rfl, fun _ => by omega, fun _ => ⟨rfl, rfl, hlast, rfl⟩⟩
      · next hne =>
        simp only at hne
        obtain ⟨t, hrun, hbelow, hreached⟩ := ih (s := State.countTick { s with inputs := es.map .event }) hp ho
          (by simp only [State.countTick_elapsed, State.countTick_cfg]; omega) rfl hrest
        simp only [State.countTick_elapsed, State.countTick_cfg] at hbelow hreached
        rw [Nat.add_right_comm, Nat.add_assoc] at hbelow hreached
        exact ⟨t, hrun, hbelow, hreached⟩
    · have ht := State.takeEvent_rxNone_ignored (s := { s with inputs := es.map .event }) hb (.inl hm)
      rw [List.length_cons, run_event_cons es.length hi ht, ticks_cons, if_neg nofun]
      exact ih (s := { s with inputs := es.map .event }) hp ho hlt rfl hrest

/-- Settles O59: the opening command is the first step, and the rest is a silent run from ELAPSED = 0. -/
theorem silentExchangeTimesOutExactly : Obligations.SilentExchangeTimesOutExactly := by
  intro s u opening i es hb hi hd hopen hu hp hes
  have hstep : core.step s = .next u := (step_decoded hi hd).trans hu
  obtain ⟨op, m, out, rfl, -⟩ := exec_opened (s := { s with inputs := es.map .event }) hopen hb hu hp
  rw [run_succ_of_next hstep]
  have hrun := run_silent hp rfl s.cfg.budget_pos (es := es) rfl hes
  rwa [show (State.opened { s with inputs := es.map .event } op m out).elapsed = 0 from rfl, Nat.zero_add] at hrun

/-! ### Independence of exchanges (R176) -/

section Outside
variable (s : State) (r : Bool) (l : List Input) (m : List Emit)

@[simp] theorem State.outside_emit (e : Emit) : (s.outside r l m).emit e = (s.emit e).outside r l m := by
  simp [State.outside, State.emit]

/-- BUILD does the same, whatever stands outside the exchange registers, but for the REFUSED it leaves. -/
theorem State.buildOnEnc_outside (op : Op) (a : Nat) (d : List Byte) (n : Nat) :
    ∃ r', (s.outside r l m).buildOnEnc op a d n = (s.buildOnEnc op a d n).outside r' l m := by
  unfold State.buildOnEnc
  rw [State.outside_cfg]
  split
  · exact ⟨r, State.outside_emit s r l m _⟩
  · exact ⟨true, rfl⟩

/-- So does BEGIN. -/
theorem State.beginWith_outside (op : Op) (a : Nat) (d : List Byte) (n : Nat) (md : Mode) :
    ∃ r', (s.outside r l m).beginWith op a d n md = (s.beginWith op a d n md).outside r' l m := by
  unfold State.beginWith
  rw [State.outside_cfg, State.outside_busy]
  split
  · exact ⟨true, rfl⟩
  · split
    · exact ⟨r, State.outside_emit (s.openExchange op md) r l m _⟩
    · exact ⟨true, rfl⟩

/-- So does LISTEN. -/
theorem State.listenWith_outside (op : Op) (md : Mode) :
    ∃ r', (s.outside r l m).listenWith op md = (s.listenWith op md).outside r' l m := by
  unfold State.listenWith
  rw [State.outside_busy]
  split
  · exact ⟨true, rfl⟩
  · exact ⟨r, rfl⟩

/-- So do the rows that are no event's. -/
theorem exec_outside_of_no_event {i : Instr} (he : eventOf i = none) :
    ∃ r', exec i (s.outside r l m) = Answer.map (State.outside · r' l m) (exec i s) := by
  cases i <;> cases he
  case reqRead | reqWrite | build => exact (s.buildOnEnc_outside r l m ..).imp fun _ => congrArg Host.Outcome.next
  case rspAckRead | rspAckWrite | rspNack | rspReady | rspBadOpcode => exact ⟨r, s.deliver_outside r l m _⟩
  case encodeControl => exact ⟨r, congrArg Host.Outcome.next (s.outside_emit r l m _)⟩
  case decodePage B =>
    obtain ⟨x, hx⟩ := decodePage_some s.cfg B
    exact ⟨r, by simp [exec, execDecodePage, hx]⟩
  case beginExchange | readPage | writeBytes | writeControl | probe =>
    exact (s.beginWith_outside r l m ..).imp fun _ => congrArg Host.Outcome.next
  case listen => exact (s.listenWith_outside r l m ..).imp fun _ => congrArg Host.Outcome.next
  case reset => exact ⟨r, rfl⟩

/-- So does every row of the opcode table. -/
theorem exec_outside (i : Instr) : ∃ r', exec i (s.outside r l m) = Answer.map (State.outside · r' l m) (exec i s) := by
  cases he : eventOf i with
  | none => exact exec_outside_of_no_event s r l m he
  | some e =>
    rw [exec_of_eventOf _ he, exec_of_eventOf _ he]
    exact ⟨r, s.takeEvent_outside r l m e⟩

end Outside

/-- A step answers alike from all states that differ only in REFUSED and in what they have emitted before. -/
theorem step_outside (s : State) (l : List Input) :
    ∃ (a : Answer) (l' : List Input), ∀ r m, ∃ r', step (s.outside r l m) = a.map (State.outside · r' l' m) := by
  cases l with
  | nil => exact ⟨.next s, [], fun r m => ⟨r, step_nil rfl⟩⟩
  | cons inp pending =>
    cases hd : decode s.cfg s.context inp with
    | ok d =>
      obtain ⟨i, left⟩ := d
      exact ⟨exec i s, left ++ pending, fun r m =>
        (exec_outside s r (left ++ pending) m i).imp fun _ h => (step_decoded (s := s.outside r _ m) rfl hd).trans h⟩
    | error x => exact ⟨.refused (.undecodable x), [], fun r m => ⟨r, by simp [step, hd, Answer.map]⟩⟩

/-- So does a run. -/
theorem run_outside (n : Nat) (s : State) (l : List Input) :
    ∃ (a : Answer) (l' : List Input), ∀ r m, ∃ r',
      Host.Core.run core n (s.outside r l m) = a.map (State.outside · r' l' m) := by
  induction n generalizing s l with
  | zero => exact ⟨.next s, l, fun r m => ⟨r, rfl⟩⟩
  | succ n ih =>
    obtain ⟨a, l₁, ha⟩ := step_outside s l
    cases a with
    | next t =>
      obtain ⟨a, l₂, hrest⟩ := ih t l₁
      refine ⟨a, l₂, fun r m => ?_⟩
      obtain ⟨r₁, h₁⟩ := ha r m
      exact (hrest r₁ m).imp fun _ h₂ => (run_succ_of_next (M := core) h₁).trans h₂
    | fault f => exact ⟨.fault f, [], fun r m => (ha r m).imp fun _ => run_succ_of_fault (M := core)⟩
    | refused f => exact ⟨.refused f, [], fun r m => (ha r m).imp fun _ => run_succ_of_refused (M := core)⟩

/-- An opened exchange, cut from what stands outside it: only the configuration and the pending inputs of the state it was
opened in are left. -/
theorem State.opened_eq_outside {s s' : State} (hc : s.cfg = s'.cfg) (op : Op) (md : Mode) (out : List Emit) :
    s.opened op md out =
      ({ s'.openExchange op md with emitted := out } : State).outside s.refused s.inputs s.emitted := by
  simp [State.opened, State.outside, State.openExchange, hc]

/-- Settles O60: both exchanges are one exchange seen from outside, and so are the states that their runs answer. -/
theorem noLeakBetweenExchanges : Obligations.NoLeakBetweenExchanges := by
  intro s₁ s₂ t₁ i n u₁ hc hi hb₁ hb₂ ho hx hp hrun
  obtain ⟨op, md, out, rfl, hopen⟩ := exec_opened ho hb₁ hx hp
  obtain ⟨a, l, ha⟩ := run_outside n ({ s₁.openExchange op md with emitted := out } : State) s₁.inputs
  obtain ⟨r₁, h₁⟩ := ha s₁.refused s₁.emitted
  obtain ⟨r₂, h₂⟩ := ha s₂.refused s₂.emitted
  rw [← State.opened_eq_outside rfl, hrun] at h₁
  rw [hi, ← State.opened_eq_outside hc.symm] at h₂
  cases a with
  | next v =>
    cases h₁
    exact ⟨_, _, v.emitted, hopen s₂ hc.symm hb₂, h₂, rfl, rfl, rfl⟩
  | fault f => cases h₁
  | refused f => cases h₁

end Sys2Proof.Machine
end

section
/-!
PROOFS. The statements of 42_register_page.md: DECODE_PAGE reads the fields at their offsets (R200 to R210) and depends on nothing
else (R213), a float field keeps its bytes (R212), the value of a binary32 pattern (R211), and the chain from an outcome to a
page (R214).
-/

namespace Sys2Proof.Machine

/-! ### A 4-byte field -/

/-- A 4-byte field is w exactly where MemRead gives the value of w: four bytes fit a pattern, so nothing is cut off. -/
theorem wordAt_eq_some_iff {B : List Byte} {o : Nat} {w : Word} : wordAt B o = some w ↔ memRead B o 4 = some w.toNat := by
  rw [wordAt, Option.map_eq_some_iff]
  constructor
  · rintro ⟨v, hv, rfl⟩
    obtain ⟨-, -, hlt⟩ := memRead_some hv
    rw [hv, BitVec.toNat_ofNat, Nat.mod_eq_of_lt (show v < 2 ^ 32 from hlt)]
  · exact fun h => ⟨_, h, by rw [BitVec.ofNat_toNat, BitVec.setWidth_eq]⟩

/-- le32 of a 4-byte field is the bytes it was read from (R212). -/
theorem le32_of_wordAt {B : List Byte} {o : Nat} {w : Word} (h : wordAt B o = some w) : le32 w = slice B o (o + 4) := by
  obtain ⟨v, hread, rfl⟩ := Option.map_eq_some_iff.mp h
  obtain ⟨hB, hv, -⟩ := memRead_some hread
  rw [hv, le32_leNat (by rw [slice_length]; omega)]

/-- A 4-byte field depends on its own bytes only. -/
theorem wordAt_congr {B B' : List Byte} {o : Nat} (hB : o + 4 ≤ B.length) (hB' : o + 4 ≤ B'.length)
    (h : ∀ k < 4, B[o + k]? = B'[o + k]?) : wordAt B o = wordAt B' o := by
  rw [wordAt, wordAt, memRead_congr hB hB' h]

/-! ### The page -/

/-- What a page read from a buffer holds: each field is the byte, or the 4-byte value, at its offset (R203 to R210). -/
theorem pageFields_eq_some_iff {c : Config} {B : List Byte} {p : RegisterPage} :
    pageFields c B = some p ↔
      B[c.offMapVer]? = some p.mapVerMinor ∧ B[c.offMapVer + 1]? = some p.mapVerMajor ∧
      B[c.offFwVer]? = some p.fwVerMinor ∧ B[c.offFwVer + 1]? = some p.fwVerMajor ∧
      B[c.offControl]? = some p.control ∧ B[c.offStatus]? = some p.status ∧
      wordAt B c.offConc = some p.concentration ∧ wordAt B c.offTemp = some p.temperature ∧
      wordAt B c.offHum = some p.humidity ∧ wordAt B c.offId = some p.deviceId := by
  constructor
  · intro h
    simp only [pageFields, bind, pure, Option.bind_eq_some_iff, Option.some.injEq] at h
    obtain ⟨_, h1, _, h2, _, h3, _, h4, _, h5, _, h6, _, h7, _, h8, _, h9, _, h10, rfl⟩ := h
    exact ⟨h1, h2, h3, h4, h5, h6, h7, h8, h9, h10⟩
  · rintro ⟨h1, h2, h3, h4, h5, h6, h7, h8, h9, h10⟩
    simp only [pageFields, h1, h2, h3, h4, h5, h6, h7, h8, h9, h10]
    rfl

/-- Below 256 bytes there is no page (R202). -/
theorem decodePage_of_lt {B : List Byte} (c : Config) (h : B.length < 256) : decodePage c B = some .tooShort :=
  if_pos h

/-- From 256 bytes on the answer is the fields (R200). -/
theorem decodePage_of_le {B : List Byte} (c : Config) (h : 256 ≤ B.length) : decodePage c B = (pageFields c B).map .page :=
  if_neg h.not_gt

/-- From 256 bytes on a page is answered exactly where its fields are read. -/
theorem decodePage_eq_page_iff {c : Config} {B : List Byte} {p : RegisterPage} (h : 256 ≤ B.length) :
    decodePage c B = some (.page p) ↔ pageFields c B = some p := by
  simp [decodePage_of_le c h]

/-- DECODE_PAGE puts its answer on PAGE and changes no register (R174, R200). -/
theorem exec_decodePage_of_eq {s : State} {B : List Byte} {r : PageResult} (h : decodePage s.cfg B = some r) :
    exec (.decodePage B) s = .next (s.emit (.page r)) := by
  rw [exec, execDecodePage, h]

/-- Settles O40: WF2 places every field within 256 bytes, so all are read, and a page holds what was read. -/
theorem pageFieldsAreRead : Obligations.PageFieldsAreRead := by
  refine ⟨fun s B h => exec_decodePage_of_eq (decodePage_of_lt s.cfg h), fun s B h => ?_⟩
  obtain ⟨p, hp⟩ := pageFields_some s.cfg h
  obtain ⟨h1, h2, h3, h4, h5, h6, h7, h8, h9, h10⟩ := pageFields_eq_some_iff.mp hp
  exact ⟨p, exec_decodePage_of_eq ((decodePage_eq_page_iff h).mpr hp), h1, h2, h3, h4, h5, h6, wordAt_eq_some_iff.mp h7,
    wordAt_eq_some_iff.mp h8, wordAt_eq_some_iff.mp h9, wordAt_eq_some_iff.mp h10⟩

/-- Settles O42: the fields of B are also those of B', a 4-byte field by the bytes it reads. -/
theorem pageDependsOnFieldBytesOnly : Obligations.PageDependsOnFieldBytesOnly := by
  intro c B B' hB hB' h
  simp only [List.forall_mem_cons] at h
  obtain ⟨hmap, hfw, hctrl, hstat, hconc, htemp, hhum, hid, -⟩ := h
  obtain ⟨-, -, -, inConc, inTemp, inHum, inId⟩ := c.fields_in_page
  have word : ∀ {o w}, o + 4 ≤ 256 → (∀ k < 4, B[o + k]? = B'[o + k]?) → wordAt B o = some w → wordAt B' o = some w :=
    fun ho hsame => (wordAt_congr (ho.trans hB) (ho.trans hB') hsame).symm.trans
  obtain ⟨p, hp⟩ := pageFields_some c hB
  have hp' : pageFields c B' = some p := by
    obtain ⟨h1, h2, h3, h4, h5, h6, h7, h8, h9, h10⟩ := pageFields_eq_some_iff.mp hp
    exact pageFields_eq_some_iff.mpr ⟨(hmap 0 two_pos).symm.trans h1, (hmap 1 one_lt_two).symm.trans h2,
      (hfw 0 two_pos).symm.trans h3, (hfw 1 one_lt_two).symm.trans h4, (hctrl 0 one_pos).symm.trans h5,
      (hstat 0 one_pos).symm.trans h6, word inConc hconc h7, word inTemp htemp h8, word inHum hhum h9, word inId hid h10⟩
  rw [decodePage_of_le c hB, decodePage_of_le c hB', hp, hp']
  exact ⟨rfl, nofun⟩

/-- Settles O43: the four fields are 4-byte fields of the buffer. -/
theorem floatFieldsKeepTheirBytes : Obligations.FloatFieldsKeepTheirBytes := by
  intro c B p hB h
  obtain ⟨-, -, -, -, -, -, hconc, htemp, hhum, hid⟩ := pageFields_eq_some_iff.mp ((decodePage_eq_page_iff hB).mp h)
  exact ⟨le32_of_wordAt hconc, le32_of_wordAt htemp, le32_of_wordAt hhum, le32_of_wordAt hid⟩

/-- Settles O45: the chain decodes the payload of an ACK, and hands on every other outcome as it is. -/
theorem pageOnlyAfterAnAck : Obligations.PageOnlyAfterAnAck := by
  refine fun c x => ⟨?_, fun hx => ?_⟩
  · rintro P rfl
    refine ⟨rfl, fun h => ?_, decodePage_of_lt c⟩
    exact (pageFields_some c h).imp fun _ => (decodePage_eq_page_iff h).mpr
  · cases x with
    | ack P => exact absurd rfl (hx P)
    | ready | rejected | malformed | timeout | transportError => rfl

/-! ### The value of a binary32 pattern -/

/-- The sign bit as arithmetic on the pattern. -/
theorem f32Sign_eq (w : Word) : f32Sign w = w.toNat / 2 ^ 31 := by
  have := w.isLt
  rw [f32Sign, BitVec.extractLsb'_toNat, Nat.shiftRight_eq_div_pow]
  omega

/-- The exponent bits as arithmetic on the pattern. -/
theorem f32Exponent_eq (w : Word) : f32Exponent w = w.toNat / 2 ^ 23 % 256 := by
  rw [f32Exponent, BitVec.extractLsb'_toNat, Nat.shiftRight_eq_div_pow]

/-- The fraction bits as arithmetic on the pattern. -/
theorem f32Fraction_eq (w : Word) : f32Fraction w = w.toNat % 2 ^ 23 := by
  rw [f32Fraction, BitVec.extractLsb'_toNat, Nat.shiftRight_zero]

/-- Infinity and NaN have no finite value. -/
theorem f32Scaled_of_exponent_max {w : Word} (h : f32Exponent w = 255) : f32Scaled w = none := if_pos h

/-- A normal number: the fraction has a leading one. -/
theorem f32Scaled_of_normal {w : Word} (h0 : 0 < f32Exponent w) (h1 : f32Exponent w < 255) :
    f32Scaled w = some ((-1) ^ f32Sign w * (2 ^ 23 + (f32Fraction w : Int)), (f32Exponent w : Int) - 150) :=
  (if_neg h1.ne).trans (if_neg h0.ne')

/-- Zero or a subnormal number: the fraction alone. -/
theorem f32Scaled_of_exponent_zero {w : Word} (h : f32Exponent w = 0) :
    f32Scaled w = some ((-1) ^ f32Sign w * (f32Fraction w : Int), -149) := by
  rw [f32Scaled, h]
  rfl

/-- Moving the point 23 bits: an integer significand at the exponent k is that significand over 2^23 at k + 23. -/
theorem scaled_eq_shifted (m : ℚ) (k : Int) : m * 2 ^ k = 2 ^ (k + 23) * (m / 2 ^ 23) := by
  rw [zpow_add₀ two_ne_zero]
  field_simp

/-- Settles O44: by the exponent, the integer significand of `f32Scaled` moved by 23 bits. -/
theorem floatPatternValues : Obligations.FloatPatternValues := by
  intro w
  simp only [← f32Sign_eq, ← f32Exponent_eq, ← f32Fraction_eq]
  refine ⟨f32Scaled_of_exponent_max, fun h0 h1 => ⟨_, _, f32Scaled_of_normal h0 h1, ?_⟩,
    fun h => ⟨_, _, f32Scaled_of_exponent_zero h, ?_⟩⟩
  · rw [scaled_eq_shifted, show (f32Exponent w : Int) - 150 + 23 = f32Exponent w - 127 by ring]
    push_cast
    ring
  · rw [scaled_eq_shifted, show (-149 : Int) + 23 = -126 by norm_num]
    push_cast
    ring

end Sys2Proof.Machine
end

section
/-!
PROOFS. The statements of 60_exceptions.md: the outcome and reason codes and the STATUS port (R230, R231, R234; R40),
CLOSE on entry into DONE (R232, R240), the finality of an outcome (R235, R238), and what abandons or times an exchange
(R242, R38).
-/

namespace Sys2Proof.Machine

/-! ### Codes -/

/-- Settles O46: each code is read off its table, and DONE and BUSY are views of PHASE. -/
theorem statusCodes : Obligations.StatusCodes :=
  ⟨rfl, fun _ => rfl, rfl, rfl, fun _ => rfl, rfl, rfl, rfl, rfl, rfl, rfl, rfl,
    fun s => ⟨beq_iff_eq, rfl, rfl, s.busy_iff⟩⟩

/-! ### What a row that answers has done -/

section Rows
variable {i : Instr} {s t : State}

/-- An opening command is refused, or opens an exchange and emits at most its frame (R140, R141). -/
theorem exec_of_opening (h : exec i s = .next t) (ho : opensExchange i = true) :
    t = s.refuse ∨
    s.busy = false ∧ ∃ op m out, t = s.opened op m out ∧ out.length ≤ 1 ∧ Emit.close ∉ out := by
  have hE := exec_effect i s
  rw [h] at hE
  generalize ha : (Host.Outcome.next t : Answer) = a at hE
  cases hE with
  | event e he => simp [opensExchange_of_eventOf he] at ho
  | delivery bs _ hn _ => simp [hn] at ho
  | output x _ hn _ _ _ => simp [hn] at ho
  | refusal _ => cases ha; exact .inl rfl
  | listening op m hb _ =>
    cases ha
    exact .inr ⟨hb, op, m, [], by simp [State.opened, State.openExchange], Nat.zero_le 1, List.not_mem_nil⟩
  | sending op m F hb _ _ => cases ha; exact .inr ⟨hb, op, m, [.tx F], rfl, le_rfl, by simp⟩
  | reset hi => simp [hi, opensExchange] at ho

/-- A row that is neither an opening command nor RESET takes an event or a delivery, or writes no exchange register: it is
a refused BUILD, or puts one result on ENC or PAGE. -/
theorem exec_of_not_opening (h : exec i s = .next t) (ho : opensExchange i = false) (hr : i ≠ .reset) :
    (∃ e, eventOf i = some e ∧ s.takeEvent e = .next t) ∨ (∃ bs, s.deliver bs = .next t) ∨
    t = s.refuse ∨ ∃ x, x ≠ .close ∧ t = s.emit x := by
  have hE := exec_effect i s
  rw [h] at hE
  generalize ha : (Host.Outcome.next t : Answer) = a at hE
  cases hE with
  | event e he => exact .inl ⟨e, he, rfl⟩
  | delivery bs _ _ _ => exact .inr (.inl ⟨bs, rfl⟩)
  | output x _ _ _ hx _ => cases ha; exact .inr (.inr (.inr ⟨x, hx, rfl⟩))
  | refusal _ => cases ha; exact .inr (.inr (.inl rfl))
  | listening op m _ hi => simp [hi, opensExchange] at ho
  | sending op m F _ hy _ => simp [hy] at ho
  | reset hi => exact absurd hi hr

/-! ### CLOSE -/

/-- What is emitted where DONE is entered with CLOSE or not at all (R232). -/
theorem State.ClosesOnDone.emits (h : s.ClosesOnDone t) :
    ∃ new, t.emitted = s.emitted ++ new ∧ new.length ≤ 1 ∧
      (Emit.close ∈ new ↔ s.phase ≠ .done ∧ t.phase = .done) := by
  rcases h with ⟨hp, he⟩ | ⟨hs, ht, he⟩
  · exact ⟨[], by simp [he], Nat.zero_le 1, iff_of_false List.not_mem_nil fun ⟨hs, ht⟩ => hs (hp.mp ht)⟩
  · exact ⟨[.close], he, le_rfl, iff_of_true (List.mem_singleton_self _) ⟨hs, ht⟩⟩

end Rows

/-- Settles O47: only an event or a delivery can enter DONE, and it does so by `raise`. -/
theorem closeExactlyOnEntryToDone : Obligations.CloseExactlyOnEntryToDone := by
  intro i s t h
  have refusal : s.ClosesOnDone s.refuse := .inl ⟨Iff.rfl, rfl⟩
  cases ho : opensExchange i with
  | true =>
    rcases exec_of_opening h ho with rfl | ⟨-, op, m, out, rfl, hlen, hc⟩
    · exact refusal.emits
    · exact ⟨out, rfl, hlen, iff_of_false hc nofun⟩
  | false =>
    by_cases hr : i = .reset
    · subst hr
      cases h
      exact ⟨[], by simp, Nat.zero_le 1, by simp⟩
    rcases exec_of_not_opening h ho hr with ⟨e, -, he⟩ | ⟨bs, hd⟩ | rfl | ⟨x, hx, rfl⟩
    · exact (State.takeEvent_closesOnDone he).emits
    · exact (State.deliver_closesOnDone hd).emits
    · exact refusal.emits
    · exact ⟨[x], rfl, le_rfl, iff_of_false (by simpa using hx.symm) fun ⟨hs, ht⟩ => hs ht⟩

/-! ### The outcome is final -/

/-- Settles O49: in DONE events and deliveries are ignored (R144). -/
theorem outcomeIsFinal : Obligations.OutcomeIsFinal := by
  intro i s t hp h ho hr
  have hb : s.busy = false := s.not_busy_iff.mpr (.inr hp)
  rcases exec_of_not_opening h ho hr with ⟨e, -, he⟩ | ⟨bs, hd⟩ | rfl | ⟨x, -, rfl⟩
  · cases (State.takeEvent_idle e hb).symm.trans he
    rfl
  · cases (State.deliver_idle bs hb).symm.trans hd
    rfl
  · rfl
  · rfl

/-! ### Leaving an active phase -/

/-- An exchange that is active or over is one that has been opened and not reset. -/
theorem State.busy_or_done_iff (s : State) : s.busy = true ∨ s.phase = .done ↔ s.phase ≠ .off := by
  cases h : s.phase <;> simp [State.busy, Phase.idle, h]

/-- No event leads to OFF. -/
theorem State.takeEvent_ne_off {s t : State} {e : Event} (h : s.takeEvent e = .next t) (hp : s.phase ≠ .off) :
    t.phase ≠ .off := by
  rcases State.takeEvent_shape h with ⟨-, rfl⟩ | ⟨-, u, hu, rfl | ⟨x, rfl⟩⟩
  · exact hp
  · exact t.busy_or_done_iff.mp (.inl hu.busy)
  · exact nofun

/-- Nor does a delivery. -/
theorem State.deliver_ne_off {s t : State} {bs : List Byte} (h : s.deliver bs = .next t) :
    s.phase ≠ .off → t.phase ≠ .off :=
  State.deliver_induction (R := fun s t => s.phase ≠ .off → t.phase ≠ .off) (fun _ => id)
    (fun _ _ _ _ hu ht hp => ht (State.takeEvent_ne_off hu hp)) h

/-- Settles O50: an opening command is refused while BUSY, and no other row but RESET leads to OFF. -/
theorem onlyResetAbandonsAnExchange : Obligations.OnlyResetAbandonsAnExchange := by
  intro i s t hb h hr
  have hp : s.phase ≠ .off := s.busy_or_done_iff.mp (.inl hb)
  rw [State.busy_or_done_iff]
  cases ho : opensExchange i with
  | true =>
    cases h.symm.trans (noOverlapOfExchanges s i hb ho)
    exact hp
  | false =>
    rcases exec_of_not_opening h ho hr with ⟨e, -, he⟩ | ⟨bs, hd⟩ | rfl | ⟨x, -, rfl⟩
    · exact State.takeEvent_ne_off he hp
    · exact State.deliver_ne_off hd hp
    · exact hp
    · exact hp

/-! ### ELAPSED -/

/-- A TICK in an active phase counts, and no other event does (R172). -/
theorem State.takeEvent_elapsed {s t : State} {e : Event} (h : s.takeEvent e = .next t) :
    t.elapsed = s.elapsed + if e = .tick ∧ s.busy = true then 1 else 0 := by
  rcases State.takeEvent_shape h with ⟨hb, rfl⟩ | ⟨hb, u, hu, rfl | ⟨x, rfl⟩⟩
  · simp [hb]
  · simpa [hb] using hu.elapsed
  · simpa [hb] using hu.elapsed

/-- A delivery counts nothing. -/
theorem State.deliver_elapsed {s t : State} {bs : List Byte} (h : s.deliver bs = .next t) : t.elapsed = s.elapsed :=
  State.deliver_induction (R := fun s t => t.elapsed = s.elapsed) (fun _ => rfl)
    (fun _ _ _ _ hu ht => ht.trans (State.takeEvent_elapsed hu)) h

/-- Settles O51: clause by clause, what RESET, an opened exchange, a refusal, a TICK and every other row do to ELAPSED. -/
theorem onlyTicksCount : Obligations.OnlyTicksCount := by
  refine fun i s t h => ⟨?_, fun ho hb hp => ?_, fun ho hn => ?_, fun he hb => ?_, fun hr ho hn => ?_⟩
  · rintro rfl
    cases h
    rfl
  · obtain ⟨op, m, out, rfl, -⟩ := exec_opened ho hb h hp
    rfl
  · rcases exec_of_opening h ho with rfl | ⟨hb, op, m, out, rfl, -, -⟩
    · rfl
    · rcases hn with hb' | hp
      · simp [hb] at hb'
      · exact absurd rfl hp
  · have ht := State.takeEvent_elapsed ((exec_of_eventOf s he).symm.trans h)
    rwa [if_pos ⟨rfl, hb⟩] at ht
  · rcases exec_of_not_opening h ho hr with ⟨e, hi, he⟩ | ⟨bs, hd⟩ | rfl | ⟨x, -, rfl⟩
    · have ht := State.takeEvent_elapsed he
      rwa [if_neg fun ⟨htick, hb⟩ => hn ⟨htick ▸ hi, hb⟩] at ht
    · exact State.deliver_elapsed hd
    · rfl
    · rfl

end Sys2Proof.Machine
end

section
/-!
PROOFS. The statement of 70_reset_and_hazards.md: every configuration passes the checks of R263 (R8, R201), and parameters that
fail one are refused at construction.
-/

namespace Sys2Proof

/-- Ranges that `Params.apart` passes hold no byte offset in common (R201 c). -/
theorem Params.not_shared_of_apart {a b : Nat × Nat} (h : apart a b = true) (k : Nat) :
    ¬ (a.1 ≤ k ∧ k < a.1 + a.2 ∧ b.1 ≤ k ∧ k < b.1 + b.2) := by
  simp only [apart, Bool.or_eq_true, decide_eq_true_eq] at h
  omega

/-- The ranges of the page are pairwise apart, the reserved byte among them (R201 c). -/
theorem Config.ranges_apart (c : Config) : c.ranges.Pairwise fun a b => Params.apart a b = true := by
  have h := c.wf2_holds
  simp only [Params.wf2, Params.disjoint, Bool.and_eq_true, decide_eq_true_eq] at h
  obtain ⟨-, hapart⟩ := h
  exact hapart

/-- Settles O2: a configuration carries the proof of its checks, WF2 as the three constraints of R201, and construction is
refused exactly without that proof. -/
theorem everyConfigurationIsWellFormed : Obligations.EveryConfigurationIsWellFormed := by
  refine ⟨fun c => ?_, fun p => Config.ofParams_none⟩
  obtain ⟨hmap, hfw, hcontrol, hconc, htemp, hhum, hid⟩ := c.fields_in_page
  exact ⟨c.marks_nodup, c.checkLen_cases, c.budget_pos, hmap, hfw, hcontrol, hconc, htemp, hhum, hid, c.status_offset,
    c.ranges_apart.imp Params.not_shared_of_apart⟩

end Sys2Proof
end
